-- ==== Sys2Proof/Word.lean ====
section
/-!
DEFINITION. Sys2Proof/Word.lean: the word types of TriCore 1 v1.3 (00_scope R9, R10; 20_memory R126).
-/
namespace Sys2Proof

/-- A 32-bit word: a register, an address while it is computed (R9, R120). -/
abbrev Word := BitVec 32
/-- A 16-bit half-word. -/
abbrev Half := BitVec 16
/-- An 8-bit byte. -/
abbrev Byte := BitVec 8

end Sys2Proof
end

