-- ==== Sys2Proof/Syntax.lean ====
section
/-!
DEFINITION. Sys2Proof/Syntax.lean: the abstract instructions of 30_encoding R306 and R307, one constructor per row of
spec/opcode_table.json. Every term carries its length, as R307 says.
-/
namespace Sys2Proof

/-- The two instruction lengths (30_encoding R300). -/
inductive Len where
  | w16
  | w32
  deriving DecidableEq, Repr, Inhabited

/-- A data register number, 0 to 15; where a pair E[n] is meant, n is its specifier (R307, R22). -/
abbrev DReg := Fin 16
/-- An address register number, 0 to 15; where a pair P[n] is meant, n is its specifier (R307, R22). -/
abbrev AReg := Fin 16

/-- The second operand of the integer instructions: a data register or an immediate (R402, R412).
PRESUMED: the immediate is nine bits, sign extended (log 2). -/
inductive Op2 where
  | reg (b : DReg)
  | imm (c : BitVec 9)
  deriving DecidableEq, Repr, Inhabited

/-- The moved operand of CMOV (R411). PRESUMED: a data register or a four-bit sign-extended constant (log 2). -/
inductive MovSrc where
  | reg (b : DReg)
  | imm (c : BitVec 4)
  deriving DecidableEq, Repr, Inhabited

/-- Where EXTR.U takes its position and width from (R373). -/
inductive BitField where
  /-- both immediate; a width of 00000B is 32 (log 49) -/
  | imm (pos width : BitVec 5)
  /-- the position from the low five bits of D[d], the width immediate -/
  | reg (d : DReg) (width : BitVec 5)
  /-- the position from the low five bits of D[e], the width from D[e+1] -/
  | pair (e : DReg)
  deriving DecidableEq, Repr, Inhabited

/-- The target of CALL and JL: PC relative, absolute or register indirect (R445, R460, R320). -/
inductive Target where
  | rel (disp : BitVec 24)
  | abs (disp : BitVec 24)
  | ind (a : AReg)
  deriving DecidableEq, Repr, Inhabited

/-- The seven addressing modes (40 R340, 30 R307). -/
inductive Mode where
  | abs (off : BitVec 18)
  | base (b : AReg) (off : BitVec 10)
  | baseLong (b : AReg) (off : BitVec 16)
  | preInc (b : AReg) (off : BitVec 10)
  | postInc (b : AReg) (off : BitVec 10)
  | circ (p : AReg) (off : BitVec 10)
  | bitRev (p : AReg)
  deriving DecidableEq, Repr, Inhabited

/-- The modes of the four context load and store instructions (42 R454). -/
inductive CtxMode where
  | abs (off : BitVec 18)
  | base (b : AReg) (off : BitVec 10)
  deriving DecidableEq, Repr, Inhabited

/-- The modes of LEA (40 R370). -/
inductive LeaMode where
  | abs (off : BitVec 18)
  | base (b : AReg) (off : BitVec 10)
  | baseLong (b : AReg) (off : BitVec 16)
  deriving DecidableEq, Repr, Inhabited

/-- The instructions Volume 1 names (30_encoding R306), in the order of spec/opcode_table.json. Operand names are those
of the rule of each instruction; `c` is a destination. -/
inductive Instr where
  | addF (len : Len) (c d a : DReg)
  | addc (len : Len) (c a : DReg) (op : Op2)
  | addscA (len : Len) (c b : AReg) (a : DReg) (n : BitVec 2)
  | addscAt (len : Len) (c b : AReg) (a : DReg)
  | addx (len : Len) (c a : DReg) (op : Op2)
  | bisr (len : Len) (const8 : BitVec 8)
  | call (len : Len) (target : Target)
  | clo (len : Len) (c a : DReg)
  | cls (len : Len) (c a : DReg)
  | clz (len : Len) (c a : DReg)
  | cmov (len : Len) (a : DReg) (op : MovSrc)
  | cmpF (len : Len) (c a b : DReg)
  | debug (len : Len)
  | disable (len : Len)
  | divF (len : Len) (c a b : DReg)
  | dsync (len : Len)
  | enable (len : Len)
  | eq (len : Len) (c a : DReg) (op : Op2)
  | extrU (len : Len) (c a : DReg) (field : BitField)
  | ftoi (len : Len) (c a : DReg)
  | ftoq31 (len : Len) (c a b : DReg)
  | ftou (len : Len) (c a : DReg)
  | ge (len : Len) (c a : DReg) (op : Op2)
  | isync (len : Len)
  | itof (len : Len) (c a : DReg)
  | jl (len : Len) (target : Target)
  | ldA (len : Len) (a : AReg) (mode : Mode)
  | ldB (len : Len) (a : DReg) (mode : Mode)
  | ldBu (len : Len) (a : DReg) (mode : Mode)
  | ldD (len : Len) (a : DReg) (mode : Mode)
  | ldlcx (len : Len) (mode : CtxMode)
  | ldmst (len : Len) (a : DReg) (mode : Mode)
  | lducx (len : Len) (mode : CtxMode)
  | lea (len : Len) (a : AReg) (mode : LeaMode)
  | lt (len : Len) (c a : DReg) (op : Op2)
  | maddF (len : Len) (c d a b : DReg)
  | mfcr (len : Len) (c : DReg) (off : BitVec 16)
  | msubF (len : Len) (c d a b : DReg)
  | mtcr (len : Len) (off : BitVec 16) (a : DReg)
  | mulF (len : Len) (c a b : DReg)
  | ne (len : Len) (c a : DReg) (op : Op2)
  | nop (len : Len)
  | q31tof (len : Len) (c a b : DReg)
  | qseedF (len : Len) (c a : DReg)
  | ret (len : Len)
  | rfe (len : Len)
  | rfm (len : Len)
  | rslcx (len : Len)
  | rstv (len : Len)
  | stA (len : Len) (a : AReg) (mode : Mode)
  | stB (len : Len) (a : DReg) (mode : Mode)
  | stD (len : Len) (a : DReg) (mode : Mode)
  | stT (len : Len) (off : BitVec 18) (bpos : BitVec 3) (b : Bool)
  | stlcx (len : Len) (mode : CtxMode)
  | stucx (len : Len) (mode : CtxMode)
  | subF (len : Len) (c d a : DReg)
  | svlcx (len : Len)
  | swapW (len : Len) (a : DReg) (mode : Mode)
  | syscall (len : Len) (const8 : BitVec 8)
  | tlbdemap (len : Len) (a : DReg)
  | tlbflushA (len : Len)
  | tlbflushB (len : Len)
  | tlbmap (len : Len) (a : DReg)
  | tlbprobeA (len : Len) (a : DReg)
  | tlbprobeI (len : Len) (a : DReg)
  | trapsv (len : Len)
  | trapv (len : Len)
  | updfl (len : Len) (a : DReg)
  | ldW (len : Len) (a : DReg) (mode : Mode)
  | ldH (len : Len) (a : DReg) (mode : Mode)
  | ldHu (len : Len) (a : DReg) (mode : Mode)
  | stW (len : Len) (a : DReg) (mode : Mode)
  | stH (len : Len) (a : DReg) (mode : Mode)
  | ldDa (len : Len) (a : AReg) (mode : Mode)
  | stDa (len : Len) (a : AReg) (mode : Mode)
  deriving DecidableEq, Repr, Inhabited

/-- The result of the decoder of 30_encoding R304 and R307 on the bits of one instruction (D1). -/
inductive Decoded where
  /-- an instruction of R306 -/
  | instr (i : Instr)
  /-- `Illegal`: IOPC -/
  | illegal
  /-- `Unimplemented`: UOPC -/
  | unimplemented
  /-- `Other(f)`: an instruction Volume 1 does not name -/
  | other
  deriving DecidableEq, Repr, Inhabited

end Sys2Proof
end

