-- ==== Sys2Proof/WellFormed.lean ====
section
/-!
DEFINITION. Sys2Proof/WellFormed.lean: which terms of Syntax have an encoding (30_encoding R320 and log 2). A term with
no encoding has a meaning all the same (R307): only the encoder and the decoder speak of encodings.
-/
namespace Sys2Proof

/-- The length of a term (30_encoding R307). -/
def Instr.len : Instr → Len
  | .addF len _ _ _ => len
  | .addc len _ _ _ => len
  | .addscA len _ _ _ _ => len
  | .addscAt len _ _ _ => len
  | .addx len _ _ _ => len
  | .bisr len _ => len
  | .call len _ => len
  | .clo len _ _ => len
  | .cls len _ _ => len
  | .clz len _ _ => len
  | .cmov len _ _ => len
  | .cmpF len _ _ _ => len
  | .debug len => len
  | .disable len => len
  | .divF len _ _ _ => len
  | .dsync len => len
  | .enable len => len
  | .eq len _ _ _ => len
  | .extrU len _ _ _ => len
  | .ftoi len _ _ => len
  | .ftoq31 len _ _ _ => len
  | .ftou len _ _ => len
  | .ge len _ _ _ => len
  | .isync len => len
  | .itof len _ _ => len
  | .jl len _ => len
  | .ldA len _ _ => len
  | .ldB len _ _ => len
  | .ldBu len _ _ => len
  | .ldD len _ _ => len
  | .ldlcx len _ => len
  | .ldmst len _ _ => len
  | .lducx len _ => len
  | .lea len _ _ => len
  | .lt len _ _ _ => len
  | .maddF len _ _ _ _ => len
  | .mfcr len _ _ => len
  | .msubF len _ _ _ _ => len
  | .mtcr len _ _ => len
  | .mulF len _ _ _ => len
  | .ne len _ _ _ => len
  | .nop len => len
  | .q31tof len _ _ _ => len
  | .qseedF len _ _ => len
  | .ret len => len
  | .rfe len => len
  | .rfm len => len
  | .rslcx len => len
  | .rstv len => len
  | .stA len _ _ => len
  | .stB len _ _ => len
  | .stD len _ _ => len
  | .stT len _ _ _ => len
  | .stlcx len _ => len
  | .stucx len _ => len
  | .subF len _ _ _ => len
  | .svlcx len => len
  | .swapW len _ _ => len
  | .syscall len _ => len
  | .tlbdemap len _ => len
  | .tlbflushA len => len
  | .tlbflushB len => len
  | .tlbmap len _ => len
  | .tlbprobeA len _ => len
  | .tlbprobeI len _ => len
  | .trapsv len => len
  | .trapv len => len
  | .updfl len _ => len
  | .ldW len _ _ => len
  | .ldH len _ _ => len
  | .ldHu len _ _ => len
  | .stW len _ _ => len
  | .stH len _ _ => len
  | .ldDa len _ _ => len
  | .stDa len _ _ => len

/-- The addressing modes an instruction is encoded with: all but base + long offset, which "a subset of the memory
operations" has (40 R343, R320). -/
def Mode.encodable (long : Bool) : Mode → Bool
  | .baseLong _ _ => long
  | _ => true

/-- Which terms have an encoding: the length is one the instruction has, and the addressing mode is one the instruction
is encoded with. -/
def Instr.wf : Instr → Bool
  | .addF len _ _ _ => len = .w32
  | .addc len _ _ _ => len = .w32
  | .addscA len _ _ _ _ => len = .w32
  | .addscAt len _ _ _ => len = .w32
  | .addx len _ _ _ => len = .w32
  | .bisr _ _ => true
  | .call len _ => len = .w32
  | .clo len _ _ => len = .w32
  | .cls len _ _ => len = .w32
  | .clz len _ _ => len = .w32
  | .cmov _ _ _ => true
  | .cmpF len _ _ _ => len = .w32
  | .debug _ => true
  | .disable len => len = .w32
  | .divF len _ _ _ => len = .w32
  | .dsync len => len = .w32
  | .enable len => len = .w32
  | .eq len _ _ _ => len = .w32
  | .extrU len _ _ _ => len = .w32
  | .ftoi len _ _ => len = .w32
  | .ftoq31 len _ _ _ => len = .w32
  | .ftou len _ _ => len = .w32
  | .ge len _ _ _ => len = .w32
  | .isync len => len = .w32
  | .itof len _ _ => len = .w32
  | .jl len _ => len = .w32
  | .ldA len _ mode => len = .w32 && mode.encodable true
  | .ldB len _ mode => len = .w32 && mode.encodable false
  | .ldBu len _ mode => len = .w32 && mode.encodable false
  | .ldD len _ mode => len = .w32 && mode.encodable false
  | .ldlcx len _ => len = .w32
  | .ldmst len _ mode => len = .w32 && mode.encodable false
  | .lducx len _ => len = .w32
  | .lea len _ _ => len = .w32
  | .lt len _ _ _ => len = .w32
  | .maddF len _ _ _ _ => len = .w32
  | .mfcr len _ _ => len = .w32
  | .msubF len _ _ _ _ => len = .w32
  | .mtcr len _ _ => len = .w32
  | .mulF len _ _ _ => len = .w32
  | .ne len _ _ _ => len = .w32
  | .nop _ => true
  | .q31tof len _ _ _ => len = .w32
  | .qseedF len _ _ => len = .w32
  | .ret _ => true
  | .rfe _ => true
  | .rfm len => len = .w32
  | .rslcx len => len = .w32
  | .rstv len => len = .w32
  | .stA len _ mode => len = .w32 && mode.encodable false
  | .stB len _ mode => len = .w32 && mode.encodable false
  | .stD len _ mode => len = .w32 && mode.encodable false
  | .stT len _ _ _ => len = .w32
  | .stlcx len _ => len = .w32
  | .stucx len _ => len = .w32
  | .subF len _ _ _ => len = .w32
  | .svlcx len => len = .w32
  | .swapW len _ mode => len = .w32 && mode.encodable false
  | .syscall len _ => len = .w32
  | .tlbdemap len _ => len = .w32
  | .tlbflushA len => len = .w32
  | .tlbflushB len => len = .w32
  | .tlbmap len _ => len = .w32
  | .tlbprobeA len _ => len = .w32
  | .tlbprobeI len _ => len = .w32
  | .trapsv len => len = .w32
  | .trapv len => len = .w32
  | .updfl len _ => len = .w32
  | .ldW len _ mode => len = .w32 && mode.encodable true
  | .ldH len _ mode => len = .w32 && mode.encodable false
  | .ldHu len _ mode => len = .w32 && mode.encodable false
  | .stW len _ mode => len = .w32 && mode.encodable true
  | .stH len _ mode => len = .w32 && mode.encodable false
  | .ldDa len _ mode => len = .w32 && mode.encodable false
  | .stDa len _ mode => len = .w32 && mode.encodable false

end Sys2Proof
end

