-- ==== Sys2Proof/Decode.lean ====
section
/-!
DEFINITION. Sys2Proof/Decode.lean: the decoder and the encoder. Volume 1 prints no encoding. PRESUMED, unsafe (log 1):
the formats and opcodes are those of the appendix 30_encoding R320, which are "from general knowledge"; PRESUMED,
unsafe (log 2): an instruction or operand form R320 gives no word takes the family's encoding, marked `family` here.
Bits that no format names are ignored by the decoder (log 4).
-/
namespace Sys2Proof

/-! ### The formats, as words (30_encoding R320) -/

/-- A register number as a four-bit field. -/
def regBits (r : Fin 16) : BitVec 4 := BitVec.ofFin r
/-- A four-bit field as a register number. -/
def regOf (b : BitVec 4) : Fin 16 := b.toFin

/-- Format ABS. -/
def Fmt.abs (op1 : BitVec 8) (op2 : BitVec 2) (off : BitVec 18) (s1 : BitVec 4) : Word :=
  off.extractLsb' 6 4 ++ op2 ++ off.extractLsb' 10 4 ++ off.extractLsb' 0 6 ++ off.extractLsb' 14 4 ++ s1 ++ op1
/-- Format B. -/
def Fmt.b (op1 : BitVec 8) (disp : BitVec 24) : Word :=
  disp.extractLsb' 0 16 ++ disp.extractLsb' 16 8 ++ op1
/-- Format BO. -/
def Fmt.bo (op1 : BitVec 8) (op2 : BitVec 6) (off : BitVec 10) (s2 s1 : BitVec 4) : Word :=
  off.extractLsb' 6 4 ++ op2 ++ off.extractLsb' 0 6 ++ s2 ++ s1 ++ op1
/-- Format BOL. -/
def Fmt.bol (op1 : BitVec 8) (off : BitVec 16) (s2 s1 : BitVec 4) : Word :=
  off.extractLsb' 6 4 ++ off.extractLsb' 10 6 ++ off.extractLsb' 0 6 ++ s2 ++ s1 ++ op1
/-- Format RC. -/
def Fmt.rc (op1 : BitVec 8) (op2 : BitVec 7) (const9 : BitVec 9) (s1 d : BitVec 4) : Word :=
  d ++ op2 ++ const9 ++ s1 ++ op1
/-- Format RLC. -/
def Fmt.rlc (op1 : BitVec 8) (const16 : BitVec 16) (s1 d : BitVec 4) : Word :=
  d ++ const16 ++ s1 ++ op1
/-- Format RR. -/
def Fmt.rr (op1 : BitVec 8) (op2 : BitVec 8) (n : BitVec 2) (s2 s1 d : BitVec 4) : Word :=
  d ++ op2 ++ 0#2 ++ n ++ s2 ++ s1 ++ op1
/-- Format RRPW (family): position [27:23], op2 [22:21], width [20:16]. -/
def Fmt.rrpw (op1 : BitVec 8) (op2 : BitVec 2) (pos width : BitVec 5) (s2 s1 d : BitVec 4) : Word :=
  d ++ pos ++ op2 ++ width ++ s2 ++ s1 ++ op1
/-- Format RRR (family): op2 [23:20], third source [27:24]. The same fields serve RRRR and RRRW (family), whose op2 is
[23:21] and whose width is [20:16]. -/
def Fmt.rrr (op1 : BitVec 8) (op2 : BitVec 4) (n : BitVec 2) (s3 s2 s1 d : BitVec 4) : Word :=
  d ++ s3 ++ op2 ++ 0#2 ++ n ++ s2 ++ s1 ++ op1
/-- Formats RRRR and RRRW (family): op2 [23:21], width [20:16], third source [27:24]. -/
def Fmt.rrrw (op1 : BitVec 8) (op2 : BitVec 3) (width : BitVec 5) (s3 s2 s1 d : BitVec 4) : Word :=
  d ++ s3 ++ op2 ++ width ++ s2 ++ s1 ++ op1
/-- Format RCR (family): third source [27:24], op2 [23:21], const9 [20:12]. -/
def Fmt.rcr (op1 : BitVec 8) (op2 : BitVec 3) (const9 : BitVec 9) (s3 s1 d : BitVec 4) : Word :=
  d ++ s3 ++ op2 ++ const9 ++ s1 ++ op1
/-- Format SYS. -/
def Fmt.sys (op1 : BitVec 8) (op2 : BitVec 6) : Word :=
  0#4 ++ op2 ++ 0#14 ++ op1
/-- Formats SR and (family) SRC and SRR: [15:12], [11:8]. -/
def Fmt.sr (op1 : BitVec 8) (hi s1 : BitVec 4) : Half := hi ++ s1 ++ op1
/-- Format SC. -/
def Fmt.sc (op1 : BitVec 8) (const8 : BitVec 8) : Half := const8 ++ op1

/-! ### The fields of a word -/

/-- op1, bits [7:0]. -/
def Fld.op1 (w : Word) : BitVec 8 := w.extractLsb' 0 8
/-- The register field [11:8]. -/
def Fld.s1 (w : Word) : BitVec 4 := w.extractLsb' 8 4
/-- The register field [15:12]. -/
def Fld.s2 (w : Word) : BitVec 4 := w.extractLsb' 12 4
/-- The register field [27:24] of the three-source formats. -/
def Fld.s3 (w : Word) : BitVec 4 := w.extractLsb' 24 4
/-- The register field [31:28]. -/
def Fld.d (w : Word) : BitVec 4 := w.extractLsb' 28 4
/-- n, bits [17:16] of RR and RRR. -/
def Fld.n (w : Word) : BitVec 2 := w.extractLsb' 16 2
/-- off18 of ABS and ABSB. -/
def Fld.off18 (w : Word) : BitVec 18 :=
  w.extractLsb' 12 4 ++ w.extractLsb' 22 4 ++ w.extractLsb' 28 4 ++ w.extractLsb' 16 6
/-- off10 of BO. -/
def Fld.off10 (w : Word) : BitVec 10 := w.extractLsb' 28 4 ++ w.extractLsb' 16 6
/-- off16 of BOL. -/
def Fld.off16 (w : Word) : BitVec 16 := w.extractLsb' 22 6 ++ w.extractLsb' 28 4 ++ w.extractLsb' 16 6
/-- disp24 of B. -/
def Fld.disp24 (w : Word) : BitVec 24 := w.extractLsb' 8 8 ++ w.extractLsb' 16 16
/-- const9 of RC. -/
def Fld.const9 (w : Word) : BitVec 9 := w.extractLsb' 12 9
/-- const16 of RLC. -/
def Fld.const16 (w : Word) : BitVec 16 := w.extractLsb' 12 16
/-- op2 of ABS. -/
def Fld.op2abs (w : Word) : BitVec 2 := w.extractLsb' 26 2
/-- op2 of BO and SYS. -/
def Fld.op2bo (w : Word) : BitVec 6 := w.extractLsb' 22 6
/-- op2 of RC. -/
def Fld.op2rc (w : Word) : BitVec 7 := w.extractLsb' 21 7
/-- op2 of RR. -/
def Fld.op2rr (w : Word) : BitVec 8 := w.extractLsb' 20 8
/-- op2 of RRPW. -/
def Fld.op2rrpw (w : Word) : BitVec 2 := w.extractLsb' 21 2
/-- op2 of RCR, RRRR and RRRW. -/
def Fld.op2rrrw (w : Word) : BitVec 3 := w.extractLsb' 21 3
/-- op2 of RRR. -/
def Fld.op2rrr (w : Word) : BitVec 4 := w.extractLsb' 20 4
/-- pos of RRPW. -/
def Fld.pos (w : Word) : BitVec 5 := w.extractLsb' 23 5
/-- width of RRPW and RRRW. -/
def Fld.width (w : Word) : BitVec 5 := w.extractLsb' 16 5

/-! ### The decoder -/

/-- The load of a low opcode digit (R320). -/
def loadOf (k : BitVec 4) (r : Fin 16) (m : Mode) : Option Instr :=
  if k = 0 then some (.ldB .w32 r m) else if k = 1 then some (.ldBu .w32 r m)
  else if k = 2 then some (.ldH .w32 r m) else if k = 3 then some (.ldHu .w32 r m)
  else if k = 4 then some (.ldW .w32 r m) else if k = 5 then some (.ldD .w32 r m)
  else if k = 6 then some (.ldA .w32 r m) else if k = 7 then some (.ldDa .w32 r m)
  else none

/-- The store of a low opcode digit (R320). -/
def storeOf (k : BitVec 4) (r : Fin 16) (m : Mode) : Option Instr :=
  if k = 0 then some (.stB .w32 r m) else if k = 2 then some (.stH .w32 r m)
  else if k = 4 then some (.stW .w32 r m) else if k = 5 then some (.stD .w32 r m)
  else if k = 6 then some (.stA .w32 r m) else if k = 7 then some (.stDa .w32 r m)
  else none

/-- The mode of the high opcode digit of formats 09H, 89H and 49H: base, post-increment, pre-increment (R320). -/
def boMode (hi : BitVec 2) (b : Fin 16) (off : BitVec 10) : Option Mode :=
  if hi = 2 then some (.base b off) else if hi = 0 then some (.postInc b off)
  else if hi = 1 then some (.preInc b off) else none

/-- The mode of the high opcode digit of formats 29H, A9H and 69H: bit-reverse, circular (R320). -/
def pairMode (hi : BitVec 2) (p : Fin 16) (off : BitVec 10) : Option Mode :=
  if hi = 0 then some (.bitRev p) else if hi = 1 then some (.circ p off) else none

/-- SWAP.W or LDMST by the low opcode digit (R320). -/
def rmwOf (k : BitVec 4) (r : Fin 16) (m : Mode) : Option Instr :=
  if k = 0 then some (.swapW .w32 r m) else if k = 1 then some (.ldmst .w32 r m) else none

/-- A 16-bit instruction: op1 is bits [7:0] (R320; CMOV family). PRESUMED (log 4): s1/d of SR is ignored. -/
def decode16 (h : Half) : Option Instr :=
  let op1 : BitVec 8 := h.extractLsb' 0 8
  let s1 : BitVec 4 := h.extractLsb' 8 4
  let hi : BitVec 4 := h.extractLsb' 12 4
  if op1 = 0x00 then
    if hi = 0x0 then some (.nop .w16) else if hi = 0x8 then some (.rfe .w16)
    else if hi = 0x9 then some (.ret .w16) else if hi = 0xA then some (.debug .w16) else none
  else if op1 = 0xE0 then some (.bisr .w16 (h.extractLsb' 8 8))
  else if op1 = 0xAA then some (.cmov .w16 (regOf s1) (.imm hi))
  else if op1 = 0x2A then some (.cmov .w16 (regOf s1) (.reg (regOf hi)))
  else none

/-- Format SYS, op1 = 0DH (R320). -/
def decodeSys (op2 : BitVec 6) : Option Instr :=
  if op2 = 0x00 then some (.nop .w32) else if op2 = 0x04 then some (.debug .w32)
  else if op2 = 0x05 then some (.rfm .w32) else if op2 = 0x06 then some (.ret .w32)
  else if op2 = 0x07 then some (.rfe .w32) else if op2 = 0x08 then some (.svlcx .w32)
  else if op2 = 0x09 then some (.rslcx .w32) else if op2 = 0x0C then some (.enable .w32)
  else if op2 = 0x0D then some (.disable .w32) else if op2 = 0x12 then some (.dsync .w32)
  else if op2 = 0x13 then some (.isync .w32) else if op2 = 0x14 then some (.trapv .w32)
  else if op2 = 0x15 then some (.trapsv .w32) else none

/-- Format ABS, op1 = 15H: the context loads and stores (R320). -/
def decodeCtxAbs (op2 : BitVec 2) (off : BitVec 18) : Option Instr :=
  if op2 = 0 then some (.stlcx .w32 (.abs off)) else if op2 = 1 then some (.stucx .w32 (.abs off))
  else if op2 = 2 then some (.ldlcx .w32 (.abs off)) else some (.lducx .w32 (.abs off))

/-- Format BO, op1 = 49H (R320). -/
def decode49 (op2 : BitVec 6) (off : BitVec 10) (b r : Fin 16) : Option Instr :=
  if op2 = 0x24 then some (.ldlcx .w32 (.base b off)) else if op2 = 0x25 then some (.lducx .w32 (.base b off))
  else if op2 = 0x26 then some (.stlcx .w32 (.base b off)) else if op2 = 0x27 then some (.stucx .w32 (.base b off))
  else if op2 = 0x28 then some (.lea .w32 r (.base b off))
  else (boMode (op2.extractLsb' 4 2) b off).bind (rmwOf (op2.extractLsb' 0 4) r)

/-- The integer operations of RC 8BH and RR 0BH (family). -/
def intOf (op2 : Nat) (c a : Fin 16) (op : Op2) : Option Instr :=
  if op2 = 0x04 then some (.addx .w32 c a op) else if op2 = 0x05 then some (.addc .w32 c a op)
  else if op2 = 0x10 then some (.eq .w32 c a op) else if op2 = 0x11 then some (.ne .w32 c a op)
  else if op2 = 0x12 then some (.lt .w32 c a op) else if op2 = 0x14 then some (.ge .w32 c a op) else none

/-- Format RR, op1 = 4BH: the two-source floating-point operations (family). -/
def fpOf (op2 : BitVec 8) (c a b : Fin 16) : Option Instr :=
  if op2 = 0x00 then some (.cmpF .w32 c a b) else if op2 = 0x04 then some (.mulF .w32 c a b)
  else if op2 = 0x05 then some (.divF .w32 c a b) else if op2 = 0x0C then some (.updfl .w32 a)
  else if op2 = 0x10 then some (.ftoi .w32 c a) else if op2 = 0x11 then some (.ftoq31 .w32 c a b)
  else if op2 = 0x12 then some (.ftou .w32 c a) else if op2 = 0x14 then some (.itof .w32 c a)
  else if op2 = 0x15 then some (.q31tof .w32 c a b) else if op2 = 0x19 then some (.qseedF .w32 c a) else none

/-- Format RRR, op1 = 6BH: the three-source floating-point operations (family). -/
def fp3Of (op2 : BitVec 4) (c d a b : Fin 16) : Option Instr :=
  if op2 = 2 then some (.addF .w32 c d a) else if op2 = 3 then some (.subF .w32 c d a)
  else if op2 = 6 then some (.maddF .w32 c d a b) else if op2 = 7 then some (.msubF .w32 c d a b) else none

/-- Format RR, op1 = 75H: the MMU instructions (R320, "low confidence"). -/
def mmuOf (op2 : BitVec 8) (a : Fin 16) : Option Instr :=
  if op2 = 0x00 then some (.tlbdemap .w32 a) else if op2 = 0x04 then some (.tlbflushA .w32)
  else if op2 = 0x05 then some (.tlbflushB .w32) else if op2 = 0x08 then some (.tlbprobeA .w32 a)
  else if op2 = 0x09 then some (.tlbprobeI .w32 a) else if op2 = 0x40 then some (.tlbmap .w32 a) else none

/-- The 32-bit form of CMOV (30 R300), in the family's conditional select with D[15] as the condition and the destination
as the value kept: SEL 2BH for a register, SELN ABH for a constant of four signed bits. -/
def cmovOf (w : Word) : Option Instr :=
  let d := Fld.d w
  let k := Fld.const9 w
  if Fld.op1 w = 0x2B then
    (if Fld.op2rrr w = 4 && Fld.s3 w = 15 && Fld.s2 w = d then some (.cmov .w32 (regOf d) (.reg (regOf (Fld.s1 w)))) else none)
  else if Fld.op2rrrw w = 5 && Fld.s3 w = 15 && Fld.s1 w = d && k = (k.extractLsb' 0 4).signExtend 9 then
    some (.cmov .w32 (regOf d) (.imm (k.extractLsb' 0 4)))
  else none

/-- A 32-bit instruction: op1 is bits [7:0] (R320). PRESUMED (log 4): a field that the instruction does not use is ignored.
PRESUMED (log 2): ST.T has op2 = 0, as in the family, where R320 gives no value. -/
def decode32 (w : Word) : Option Instr :=
  let op1 := Fld.op1 w
  let r := regOf (Fld.s1 w)
  let b := regOf (Fld.s2 w)
  let e := regOf (Fld.s3 w)
  let d := regOf (Fld.d w)
  let k := (Fld.op2bo w).extractLsb' 0 4
  let hi := (Fld.op2bo w).extractLsb' 4 2
  let absMode := Mode.abs (Fld.off18 w)
  if op1 = 0x0D then decodeSys (Fld.op2bo w)
  else if op1 = 0x2F then (if Fld.op2bo w = 0 then some (.rstv .w32) else none)
  else if op1 = 0x5D then some (.jl .w32 (.rel (Fld.disp24 w)))
  else if op1 = 0xDD then some (.jl .w32 (.abs (Fld.disp24 w)))
  else if op1 = 0x6D then some (.call .w32 (.rel (Fld.disp24 w)))
  else if op1 = 0xED then some (.call .w32 (.abs (Fld.disp24 w)))
  else if op1 = 0x2D then
    (if Fld.op2rr w = 0 then some (.call .w32 (.ind r))
     else if Fld.op2rr w = 2 then some (.jl .w32 (.ind r)) else none)
  else if op1 = 0x4D then some (.mfcr .w32 d (Fld.const16 w))
  else if op1 = 0xCD then some (.mtcr .w32 (Fld.const16 w) r)
  else if op1 = 0xAD then
    (if Fld.op2rc w = 0 then some (.bisr .w32 ((Fld.const9 w).extractLsb' 0 8))
     else if Fld.op2rc w = 4 then some (.syscall .w32 ((Fld.const9 w).extractLsb' 0 8)) else none)
  else if op1 = 0x15 then decodeCtxAbs (Fld.op2abs w) (Fld.off18 w)
  else if op1 = 0x49 then decode49 (Fld.op2bo w) (Fld.off10 w) b r
  else if op1 = 0x69 then (pairMode hi b (Fld.off10 w)).bind (rmwOf k r)
  else if op1 = 0x05 then loadOf (0#2 ++ Fld.op2abs w) r absMode
  else if op1 = 0x85 then loadOf (1#2 ++ Fld.op2abs w) r absMode
  else if op1 = 0x25 then
    (if Fld.op2abs w = 0 then some (.stB .w32 r absMode)
     else if Fld.op2abs w = 2 then some (.stH .w32 r absMode) else none)
  else if op1 = 0xA5 then storeOf (1#2 ++ Fld.op2abs w) r absMode
  else if op1 = 0xE5 then rmwOf (0#2 ++ Fld.op2abs w) r absMode
  else if op1 = 0xC5 then (if Fld.op2abs w = 0 then some (.lea .w32 r (.abs (Fld.off18 w))) else none)
  else if op1 = 0xD5 then
    (if Fld.op2abs w = 0 then
      some (.stT .w32 (Fld.off18 w) ((Fld.s1 w).extractLsb' 0 3) ((Fld.s1 w).getLsbD 3)) else none)
  else if op1 = 0x09 then (boMode hi b (Fld.off10 w)).bind (loadOf k r)
  else if op1 = 0x29 then (pairMode hi b (Fld.off10 w)).bind (loadOf k r)
  else if op1 = 0x89 then (boMode hi b (Fld.off10 w)).bind (storeOf k r)
  else if op1 = 0xA9 then (pairMode hi b (Fld.off10 w)).bind (storeOf k r)
  else if op1 = 0x19 then some (.ldW .w32 r (.baseLong b (Fld.off16 w)))
  else if op1 = 0x99 then some (.ldA .w32 r (.baseLong b (Fld.off16 w)))
  else if op1 = 0xD9 then some (.lea .w32 r (.baseLong b (Fld.off16 w)))
  else if op1 = 0x59 then some (.stW .w32 r (.baseLong b (Fld.off16 w)))
  else if op1 = 0x75 then mmuOf (Fld.op2rr w) r
  else if op1 = 0x8B then intOf (Fld.op2rc w).toNat d r (.imm (Fld.const9 w))
  else if op1 = 0x0B then intOf (Fld.op2rr w).toNat d r (.reg b)
  else if op1 = 0x0F then
    (if Fld.op2rr w = 0x1B then some (.clz .w32 d r) else if Fld.op2rr w = 0x1C then some (.clo .w32 d r)
     else if Fld.op2rr w = 0x1D then some (.cls .w32 d r) else none)
  else if op1 = 0x01 then
    (if Fld.op2rr w = 0x60 then some (.addscA .w32 d b r (Fld.n w))
     else if Fld.op2rr w = 0x62 then some (.addscAt .w32 d b r) else none)
  else if op1 = 0x37 then
    (if Fld.op2rrpw w = 3 then some (.extrU .w32 d r (.imm (Fld.pos w) (Fld.width w))) else none)
  else if op1 = 0x57 then
    (if Fld.op2rrrw w = 3 then some (.extrU .w32 d r (.reg e (Fld.width w))) else none)
  else if op1 = 0x17 then
    (if Fld.op2rrrw w = 3 then some (.extrU .w32 d r (.pair e)) else none)
  else if op1 = 0x4B then fpOf (Fld.op2rr w) d r b
  else if op1 = 0x6B then fp3Of (Fld.op2rrr w) d e r b
  else if op1 = 0x2B then cmovOf w
  else if op1 = 0xAB then cmovOf w
  else none

/-- Why a sequence of bytes is not an instruction of this model. -/
inductive DecodeError where
  /-- fewer bytes than the instruction takes -/
  | truncated
  /-- a 16-bit pattern the decoder does not know -/
  | unknown16 (h : Half)
  /-- a 32-bit pattern the decoder does not know -/
  | unknown32 (w : Word)
  deriving DecidableEq, Repr, Inhabited

/-- Bit 0 of the first half-word tells the length: 0 is a 16-bit instruction (R320, PRESUMED, log 1). -/
def isShort (b0 : Byte) : Bool := !b0.getLsbD 0

/-- The decoder on the bytes at an address, lowest address first, little endian (20_memory R133): the instruction and
the bytes after it. -/
def decode : List Byte → Except DecodeError (Instr × List Byte)
  | b0 :: b1 :: rest =>
    if isShort b0 then
      match decode16 (b1 ++ b0) with
      | some i => .ok (i, rest)
      | none => .error (.unknown16 (b1 ++ b0))
    else
      match rest with
      | b2 :: b3 :: rest' =>
        match decode32 (b3 ++ b2 ++ b1 ++ b0) with
        | some i => .ok (i, rest')
        | none => .error (.unknown32 (b3 ++ b2 ++ b1 ++ b0))
      | _ => .error .truncated
  | _ => .error .truncated

/-! ### The encoder -/

/-- A load, store or read-modify-write in a BO format: the opcode of the mode's group, the low digit of the
instruction (R320). `none` where R320 has no such word. -/
def encodeMode (opAbs : BitVec 8) (op2Abs : BitVec 2) (opBo opPair : BitVec 8) (k : BitVec 4) (opLong : Option (BitVec 8))
    (r : Fin 16) : Mode → Option Word
  | .abs off => some (Fmt.abs opAbs op2Abs off (regBits r))
  | .base b off => some (Fmt.bo opBo (2#2 ++ k) off (regBits b) (regBits r))
  | .postInc b off => some (Fmt.bo opBo (0#2 ++ k) off (regBits b) (regBits r))
  | .preInc b off => some (Fmt.bo opBo (1#2 ++ k) off (regBits b) (regBits r))
  | .circ p off => some (Fmt.bo opPair (1#2 ++ k) off (regBits p) (regBits r))
  | .bitRev p => some (Fmt.bo opPair (0#2 ++ k) 0 (regBits p) (regBits r))
  | .baseLong b off => opLong.map fun op => Fmt.bol op off (regBits b) (regBits r)

/-- A context load or store (R320). -/
def encodeCtx (op2Abs : BitVec 2) (op2Bo : BitVec 6) : CtxMode → Word
  | .abs off => Fmt.abs 0x15 op2Abs off 0
  | .base b off => Fmt.bo 0x49 op2Bo off (regBits b) 0

/-- An integer operation (family): RC 8BH or RR 0BH. -/
def encodeInt (op2 : BitVec 7) (c a : Fin 16) : Op2 → Word
  | .imm k => Fmt.rc 0x8B op2 k (regBits a) (regBits c)
  | .reg b => Fmt.rr 0x0B (0#1 ++ op2) 0 (regBits b) (regBits a) (regBits c)

/-- CALL or JL: relative, absolute, indirect. -/
def encodeTarget (opRel opAbs : BitVec 8) (op2 : BitVec 8) : Target → Word
  | .rel disp => Fmt.b opRel disp
  | .abs disp => Fmt.b opAbs disp
  | .ind a => Fmt.rr 0x2D op2 0 0 (regBits a) 0

/-- A two-source floating-point operation (family). -/
def encodeFp (op2 : BitVec 8) (c a b : Fin 16) : Word := Fmt.rr 0x4B op2 1 (regBits b) (regBits a) (regBits c)

/-- A three-source floating-point operation (family). -/
def encodeFp3 (op2 : BitVec 4) (c d a b : Fin 16) : Word :=
  Fmt.rrr 0x6B op2 1 (regBits d) (regBits b) (regBits a) (regBits c)

/-- The 16-bit word of an instruction that has one. -/
def encode16 : Instr → Option Half
  | .nop .w16 => some (Fmt.sr 0x00 0x0 0)
  | .rfe .w16 => some (Fmt.sr 0x00 0x8 0)
  | .ret .w16 => some (Fmt.sr 0x00 0x9 0)
  | .debug .w16 => some (Fmt.sr 0x00 0xA 0)
  | .bisr .w16 k => some (Fmt.sc 0xE0 k)
  | .cmov .w16 a (.imm k) => some (Fmt.sr 0xAA k (regBits a))
  | .cmov .w16 a (.reg b) => some (Fmt.sr 0x2A (regBits b) (regBits a))
  | _ => none

/-- The 32-bit word of an instruction that has one. -/
def encode32 : Instr → Option Word
  | .addF _ c d a => some (encodeFp3 2 c d a 0)
  | .addc _ c a op => some (encodeInt 0x05 c a op)
  | .addscA _ c b a n => some (Fmt.rr 0x01 0x60 n (regBits b) (regBits a) (regBits c))
  | .addscAt _ c b a => some (Fmt.rr 0x01 0x62 0 (regBits b) (regBits a) (regBits c))
  | .addx _ c a op => some (encodeInt 0x04 c a op)
  | .bisr _ k => some (Fmt.rc 0xAD 0x00 (0#1 ++ k) 0 0)
  | .call _ t => some (encodeTarget 0x6D 0xED 0 t)
  | .clo _ c a => some (Fmt.rr 0x0F 0x1C 0 0 (regBits a) (regBits c))
  | .cls _ c a => some (Fmt.rr 0x0F 0x1D 0 0 (regBits a) (regBits c))
  | .clz _ c a => some (Fmt.rr 0x0F 0x1B 0 0 (regBits a) (regBits c))
  | .cmov _ a (.reg b) => some (Fmt.rrr 0x2B 4 0 15 (regBits a) (regBits b) (regBits a))
  | .cmov _ a (.imm k) => some (Fmt.rcr 0xAB 5 (k.signExtend 9) 15 (regBits a) (regBits a))
  | .cmpF _ c a b => some (encodeFp 0x00 c a b)
  | .debug _ => some (Fmt.sys 0x0D 0x04)
  | .disable _ => some (Fmt.sys 0x0D 0x0D)
  | .divF _ c a b => some (encodeFp 0x05 c a b)
  | .dsync _ => some (Fmt.sys 0x0D 0x12)
  | .enable _ => some (Fmt.sys 0x0D 0x0C)
  | .eq _ c a op => some (encodeInt 0x10 c a op)
  | .extrU _ c a (.imm pos width) => some (Fmt.rrpw 0x37 3 pos width 0 (regBits a) (regBits c))
  | .extrU _ c a (.reg d width) => some (Fmt.rrrw 0x57 3 width (regBits d) 0 (regBits a) (regBits c))
  | .extrU _ c a (.pair e) => some (Fmt.rrrw 0x17 3 0 (regBits e) 0 (regBits a) (regBits c))
  | .ftoi _ c a => some (encodeFp 0x10 c a 0)
  | .ftoq31 _ c a b => some (encodeFp 0x11 c a b)
  | .ftou _ c a => some (encodeFp 0x12 c a 0)
  | .ge _ c a op => some (encodeInt 0x14 c a op)
  | .isync _ => some (Fmt.sys 0x0D 0x13)
  | .itof _ c a => some (encodeFp 0x14 c a 0)
  | .jl _ t => some (encodeTarget 0x5D 0xDD 2 t)
  | .ldA _ a m => encodeMode 0x85 2 0x09 0x29 6 (some 0x99) a m
  | .ldB _ a m => encodeMode 0x05 0 0x09 0x29 0 none a m
  | .ldBu _ a m => encodeMode 0x05 1 0x09 0x29 1 none a m
  | .ldD _ a m => encodeMode 0x85 1 0x09 0x29 5 none a m
  | .ldlcx _ m => some (encodeCtx 2 0x24 m)
  | .ldmst _ a m => encodeMode 0xE5 1 0x49 0x69 1 none a m
  | .lducx _ m => some (encodeCtx 3 0x25 m)
  | .lea _ a (.abs off) => some (Fmt.abs 0xC5 0 off (regBits a))
  | .lea _ a (.base b off) => some (Fmt.bo 0x49 0x28 off (regBits b) (regBits a))
  | .lea _ a (.baseLong b off) => some (Fmt.bol 0xD9 off (regBits b) (regBits a))
  | .lt _ c a op => some (encodeInt 0x12 c a op)
  | .maddF _ c d a b => some (encodeFp3 6 c d a b)
  | .mfcr _ c off => some (Fmt.rlc 0x4D off 0 (regBits c))
  | .msubF _ c d a b => some (encodeFp3 7 c d a b)
  | .mtcr _ off a => some (Fmt.rlc 0xCD off (regBits a) 0)
  | .mulF _ c a b => some (encodeFp 0x04 c a b)
  | .ne _ c a op => some (encodeInt 0x11 c a op)
  | .nop _ => some (Fmt.sys 0x0D 0x00)
  | .q31tof _ c a b => some (encodeFp 0x15 c a b)
  | .qseedF _ c a => some (encodeFp 0x19 c a 0)
  | .ret _ => some (Fmt.sys 0x0D 0x06)
  | .rfe _ => some (Fmt.sys 0x0D 0x07)
  | .rfm _ => some (Fmt.sys 0x0D 0x05)
  | .rslcx _ => some (Fmt.sys 0x0D 0x09)
  | .rstv _ => some (Fmt.sys 0x2F 0x00)
  | .stA _ a m => encodeMode 0xA5 2 0x89 0xA9 6 none a m
  | .stB _ a m => encodeMode 0x25 0 0x89 0xA9 0 none a m
  | .stD _ a m => encodeMode 0xA5 1 0x89 0xA9 5 none a m
  | .stT _ off bpos b => some (Fmt.abs 0xD5 0 off (BitVec.ofBool b ++ bpos))
  | .stlcx _ m => some (encodeCtx 0 0x26 m)
  | .stucx _ m => some (encodeCtx 1 0x27 m)
  | .subF _ c d a => some (encodeFp3 3 c d a 0)
  | .svlcx _ => some (Fmt.sys 0x0D 0x08)
  | .swapW _ a m => encodeMode 0xE5 0 0x49 0x69 0 none a m
  | .syscall _ k => some (Fmt.rc 0xAD 0x04 (0#1 ++ k) 0 0)
  | .tlbdemap _ a => some (Fmt.rr 0x75 0x00 0 0 (regBits a) 0)
  | .tlbflushA _ => some (Fmt.rr 0x75 0x04 0 0 0 0)
  | .tlbflushB _ => some (Fmt.rr 0x75 0x05 0 0 0 0)
  | .tlbmap _ a => some (Fmt.rr 0x75 0x40 0 0 (regBits a) 0)
  | .tlbprobeA _ a => some (Fmt.rr 0x75 0x08 0 0 (regBits a) 0)
  | .tlbprobeI _ a => some (Fmt.rr 0x75 0x09 0 0 (regBits a) 0)
  | .trapsv _ => some (Fmt.sys 0x0D 0x15)
  | .trapv _ => some (Fmt.sys 0x0D 0x14)
  | .updfl _ a => some (Fmt.rr 0x4B 0x0C 1 0 (regBits a) 0)
  | .ldW _ a m => encodeMode 0x85 0 0x09 0x29 4 (some 0x19) a m
  | .ldH _ a m => encodeMode 0x05 2 0x09 0x29 2 none a m
  | .ldHu _ a m => encodeMode 0x05 3 0x09 0x29 3 none a m
  | .stW _ a m => encodeMode 0xA5 0 0x89 0xA9 4 (some 0x59) a m
  | .stH _ a m => encodeMode 0x25 2 0x89 0xA9 2 none a m
  | .ldDa _ a m => encodeMode 0x85 3 0x09 0x29 7 none a m
  | .stDa _ a m => encodeMode 0xA5 3 0x89 0xA9 7 none a m

/-- The bytes of a word, lowest address first (20_memory R132). -/
def wordBytes (w : Word) : List Byte :=
  [w.extractLsb' 0 8, w.extractLsb' 8 8, w.extractLsb' 16 8, w.extractLsb' 24 8]
/-- The bytes of a half-word, lowest address first (20_memory R132). -/
def halfBytes (h : Half) : List Byte := [h.extractLsb' 0 8, h.extractLsb' 8 8]

/-- The encoder: the bytes of an instruction, lowest address first; `none` for a term that has no encoding. -/
def encode (i : Instr) : Option (List Byte) :=
  match i.len with
  | .w16 => (encode16 i).map halfBytes
  | .w32 => (encode32 i).map wordBytes

/-- What the host asks: the instruction the decoder reads from the bits `w`, numbered from the least significant bit of
the first half-word, `nbits` of them given and the rest zero. -/
def decodeTableWord (nbits w : Nat) : Option Instr :=
  match decode (wordBytes (BitVec.ofNat 32 (w % 2 ^ nbits))) with
  | .ok (i, _) => some i
  | .error _ => none

end Sys2Proof
end

