-- ==== Sys2Proof/Config.lean ====
section
/-!
DEFINITION. Sys2Proof/Config.lean: the free values and the open functions of 92_eei_decisions section 2. Each is an
opaque constant: no proof can see what it is, so a theorem holds whatever it is (93 treatments `parameter` and
`any value`). Parameters with a value (R9) are the record `Machine.Platform` of State.
-/
namespace Sys2Proof

/-- DESIGN CHOICE, safe (log 11): the k-th free value of the n-th instruction that needs one. -/
opaque Config.freeWord : Nat → Nat → Word

/-- `qseed_approx` (45 R595, U33): biased exponent less one (so 1 to 254) and fraction of the approximation, a
positive normal number for every operand. DESIGN CHOICE, safe (log 51). -/
opaque Config.qseedApprox : Word → Fin 254 × BitVec 23

/-- The parameter `decode` (30 R304, D1) on the words this model's decoder does not know; the argument holds the
instruction's bits, a 16-bit instruction zero extended. DESIGN CHOICE, safe (log 3). -/
opaque Config.decodeElse : Word → Decoded

/-- What one `Other(f)` does (30 R307): the new data and address registers, the new PSW[31:24], the next PC, and
whether it writes a global address register. -/
structure Config.OtherEffect where
  d : Vector Word 16
  a : Vector Word 16
  usb : BitVec 8
  nextPc : Word
  writesGlobal : Bool
  deriving DecidableEq, Repr, Inhabited

/-- The semantics parameter of `Other(f)` (30 R307, D1): from the instruction's bits, its address, D, A and PSW[31:24].
DESIGN CHOICE, safe (log 3). -/
opaque Config.otherEffect : Word → Word → Vector Word 16 → Vector Word 16 → BitVec 8 → Config.OtherEffect

end Sys2Proof
end

