-- ==== Sys2Proof/Machine/State.lean ====
section
/-!
DEFINITION. Sys2Proof/Machine/State.lean: everything the spec gives the machine (10_state, 11_state_system, summary in
R110), as plain data, the reasons a step can stop, and the state after reset (70 R782 to R784).
-/
namespace Sys2Proof.Machine

/-- A service request node (10_state R60): the stored state of one SRC register. -/
structure Src where
  srr : Bool
  sre : Bool
  tos : BitVec 2
  srpn : BitVec 8
  deriving DecidableEq, Repr, Inhabited

/-- The SRC value 0000 0000H: a disabled node with no request (10_state R60, D6). -/
def Src.reset : Src := { srr := false, sre := false, tos := 0, srpn := 0 }

/-- A TLB table entry (11_state_system R87). VPN and PPN are kept aligned to address bit 10, as MMU_TVA and MMU_TPA
return them (44 R537); `psz` is the page size the entry was entered with (R87, log 44). -/
structure Tte where
  v : Bool
  asi : BitVec 5
  vpn : BitVec 22
  ppn : BitVec 22
  xe : Bool
  we : Bool
  re : Bool
  g : Bool
  c : Bool
  psz : BitVec 2
  deriving DecidableEq, Repr, Inhabited

/-- An invalid TTE. -/
def Tte.invalid : Tte :=
  { v := false, asi := 0, vpn := 0, ppn := 0, xe := false, we := false, re := false, g := false, c := false, psz := 0 }

/-- One protection register set: four data ranges, four code ranges and the two mode registers (11_state_system R70 to
R74). -/
structure ProtSet where
  dprL : Vector Word 4
  dprU : Vector Word 4
  cprL : Vector Word 4
  cprU : Vector Word 4
  dpm : Word
  cpm : Word
  deriving DecidableEq, Repr, Inhabited

/-- All bounds and modes 0: DESIGN CHOICE (log 5). -/
def ProtSet.reset : ProtSet :=
  { dprL := Vector.replicate 4 0, dprU := Vector.replicate 4 0, cprL := Vector.replicate 4 0,
    cprU := Vector.replicate 4 0, dpm := 0, cpm := 0 }

/-- The four physical memory attributes (20_memory R161). -/
inductive Attr where
  | peripheral
  | emulator
  | cacheable
  | nonCacheable
  deriving DecidableEq, Repr, Inhabited

/-- A region of physical addresses: base and size in bytes. -/
structure Region where
  base : Nat
  size : Nat
  deriving DecidableEq, Repr, Inhabited

/-- The implementation parameters of 00_scope R9, one record that no step changes. DESIGN CHOICE (log 9): the values are
part of State, so a statement about every state holds for every implementation. -/
structure Platform where
  /-- `HAS_FPU` (D3) -/
  hasFpu : Bool
  /-- `HAS_MMU` (D2) -/
  hasMmu : Bool
  /-- `TLB_TSZ`, 3 to 127 (R243) -/
  tlbTsz : BitVec 7
  /-- `N_PROT_SETS`, 2 to 4 (R70) -/
  nProtSets : Nat
  /-- `N_DATA_RANGES`, at most 4 (D5) -/
  nDataRanges : Nat
  /-- `N_CODE_RANGES`, at most 4 (D5) -/
  nCodeRanges : Nat
  /-- `N_TRIGGERS` (D8): TR0EVT and TR1EVT, and the further ones of R90, whose offsets FD20H + 4n have room for 8 -/
  nTriggers : Nat
  /-- `N_SW_BREAKPOINTS`, 1 to 4 (D8) -/
  nSwBreakpoints : Nat
  /-- `PMA` (R162). Segment FH is peripheral space whatever stands here, and segment DH is non-cacheable memory unless
  cacheable memory stands here: `attrOf` holds both constraints -/
  pma : Vector Attr 16
  /-- `EMULATOR_REGION`, a set of addresses (R163, D10), in force while DBGSR.DE = 1 -/
  emulator : List Region
  /-- `CACHE_LINE_BYTES` (R160): it bounds only how far a speculative read may reach, so no rule of this model asks for
  it (U27) -/
  cacheLineBytes : Nat
  /-- forward progress of TLBMAP (R539, D2): how many of the latest mappings the next TLBMAP leaves alone. 1 is what R243
  promises, 3 lets every instruction's four mappings be resident at once (log 43) -/
  tlbKeeps : Nat
  /-- `CSFR_BASE` (D4) -/
  csfrBase : Word
  /-- `CPS_BASE` (D4) -/
  cpsBase : Word
  /-- `DSPR_BYTES` (R164) -/
  dsprBytes : Nat
  /-- `PSPR_BYTES` (R164) -/
  psprBytes : Nat
  /-- `bus_error`: where the bus reports an error (R700 to R702) -/
  busErrors : List Region
  /-- whether the implementation declares the CSA restriction (D15) -/
  csaRestriction : Bool
  /-- `csa_ok`: where context save areas may be (R437) -/
  csaRegions : List Region
  /-- `RESET_PC` (R781) -/
  resetPc : Word
  /-- `RESET_BIV` (R55) -/
  resetBiv : Word
  /-- `RESET_BTV` (R56) -/
  resetBtv : Word
  /-- `RESET_DMS` (R101) -/
  resetDms : Word
  /-- `RESET_DCX` (R102) -/
  resetDcx : Word
  /-- `BOOT_HALT` (R796) -/
  bootHalt : Bool
  /-- `CPU_ID_MOD` (R59) -/
  cpuIdMod : BitVec 16
  /-- `CPU_ID_REV`, at least 1 (R59) -/
  cpuIdRev : BitVec 8
  /-- the further service request nodes the platform has (`SRN`, R63): their SRC addresses -/
  extraNodes : List Word
  /-- U5: whether A[12] to A[15], D[8] to D[15] keep their values over an upper context save (R25), or are free (log 16) -/
  upperRegsKept : Bool
  /-- U34: whether what R672 does not guarantee is kept over an FCU entry (D36), or is free (log 17) -/
  fcuKeeps : Bool
  deriving DecidableEq, Repr, Inhabited

/-- Table 13 (20_memory R162), segments 0 to FH. -/
def Platform.table13 : Vector Attr 16 :=
  #v[.cacheable, .cacheable, .cacheable, .cacheable, .cacheable, .cacheable, .cacheable, .cacheable,
     .cacheable, .cacheable, .nonCacheable, .nonCacheable, .cacheable, .nonCacheable, .peripheral, .peripheral]

/-- The parameters the model's reset takes: the defaults of spec/92 where it names one, else DESIGN CHOICE (log 6,
log 9). -/
def Platform.default : Platform :=
  { hasFpu := true, hasMmu := true, tlbTsz := 3, nProtSets := 4, nDataRanges := 4, nCodeRanges := 4,
    nTriggers := 2, nSwBreakpoints := 4, pma := Platform.table13,
    emulator := [{ base := 0xDE000000, size := 0x01000000 }], cacheLineBytes := 32, tlbKeeps := 3,
    csfrBase := 0xF7E10000, cpsBase := 0xF7E00000, dsprBytes := 0x04000000, psprBytes := 0x04000000,
    busErrors := [], csaRestriction := false, csaRegions := [],
    resetPc := 0x80000000, resetBiv := 0, resetBtv := 0, resetDms := 0xDE000000, resetDcx := 0xDE800000,
    bootHalt := false, cpuIdMod := 0, cpuIdRev := 1, extraNodes := [], upperRegsKept := true, fcuKeeps := true }

/-- One access of the program to a peripheral device (20_memory R192): its kind, its first address and its bytes. -/
structure DeviceAccess where
  write : Bool
  addr : Nat
  bytes : List Byte
  deriving DecidableEq, Repr, Inhabited

/-- What the environment can do at an instruction boundary (92 section 3). -/
inductive InputEvent where
  /-- reset (70 R780) -/
  | reset
  /-- the end of initialisation: `endinit` becomes 1 (D11) -/
  | endinit
  /-- hardware sets SRR of node k (60 R640, R641); nodes 0 to 3 are CPU_SRC, 4 to 7 CPU_SBSRC, from 8 the platform's
  further nodes; a CPU_SRC has no hardware source (10_state R63), and a bus master uses `writeSrc` -/
  | setRequest (node : Nat)
  /-- SRR of node k is cleared from outside: another service provider acknowledged it (U19), or its own hardware reset it
  (10_state R62); whatever its TOS is: log 12 -/
  | clearRequest (node : Nat)
  /-- NMI (60 R712) -/
  | nmi
  /-- an asynchronous data error is reported back (60 R702) -/
  | dae
  /-- Core Break-In is asserted (61 R732) -/
  | breakIn
  /-- the system sets DBGSR.DE (61 R730) -/
  | debugEnable (on : Bool)
  /-- another agent writes a byte of memory (20_memory R191) -/
  | writeMem (addr : Word) (b : Byte)
  /-- another agent writes a core register at CSFR_BASE + off, GPRs included (10_state R27, R34) -/
  | writeCsfr (off : BitVec 16) (v : Word)
  /-- another agent writes the SRC of node k (10_state R36) -/
  | writeSrc (node : Nat) (v : Word)
  deriving DecidableEq, Repr, Inhabited

/-- The machine (11_state_system R110). -/
structure State where
  /-- D[0] to D[15] (R20) -/
  d : Vector Word 16
  /-- A[0] to A[15] (R20) -/
  a : Vector Word 16
  /-- PC (R29) -/
  pc : Word
  /-- PSW (R40) -/
  psw : Word
  /-- PCXI (R45) -/
  pcxi : Word
  /-- FCX (R47) -/
  fcx : Word
  /-- LCX (R49) -/
  lcx : Word
  /-- ISP (R51) -/
  isp : Word
  /-- ICR (R54) -/
  icr : Word
  /-- BIV (R55) -/
  biv : Word
  /-- BTV (R56) -/
  btv : Word
  /-- SYSCON (R57) -/
  syscon : Word
  /-- the four protection register sets (R70) -/
  prot : Vector ProtSet 4
  /-- MMU_CON (R81) -/
  mmuCon : Word
  /-- MMU_ASI (R82) -/
  mmuAsi : Word
  /-- MMU_TVA (R83) -/
  mmuTva : Word
  /-- MMU_TPA (R84) -/
  mmuTpa : Word
  /-- MMU_TPX (R85) -/
  mmuTpx : Word
  /-- MMU_TFA (R86) -/
  mmuTfa : Word
  /-- TLB-A, index 0 first (R87) -/
  tlbA : List Tte
  /-- TLB-B, index 128 first (R87) -/
  tlbB : List Tte
  /-- DBGSR (R91); HALT[1] always reads 0 -/
  dbgsr : Word
  /-- EXEVT (R93) -/
  exevt : Word
  /-- CREVT (R94) -/
  crevt : Word
  /-- SWEVT (R95) -/
  swevt : Word
  /-- TRnEVT, n below `platform.nTriggers` (R90, R98) -/
  trEvt : Vector Word 8
  /-- DMS (R101) -/
  dms : Word
  /-- DCX (R102) -/
  dcx : Word
  /-- CPU_SRC0 to CPU_SRC3 (R63) -/
  cpuSrc : Vector Src 4
  /-- CPU_SBSRC0 to CPU_SBSRC3 (R103) -/
  sbSrc : Vector Src 4
  /-- the platform's further nodes, in the order of `platform.extraNodes` (R63) -/
  extraSrc : List Src
  /-- `endinit` (R38): false is the initialisation state -/
  endinit : Bool
  /-- `nmi_pending` (R106) -/
  nmiPending : Bool
  /-- `dae_pending` (R106) -/
  daePending : Bool
  /-- `fcd_pending` (R106) -/
  fcdPending : Bool
  /-- memory (R120): addresses strictly rising, no byte equal to 0 listed (log 7) -/
  mem : List Host.Cell
  /-- the MODEL's own field: the implementation parameters (log 9) -/
  platform : Platform
  /-- the MODEL's own field: what the environment does at the coming boundaries, the next one first (log 12) -/
  inputs : List (List InputEvent)
  /-- the MODEL's own field: numbers the free values (log 11) -/
  freeCount : Nat
  /-- the MODEL's own field: TLB slots of the last TLBMAPs since both TLBs were last defined, newest first, at most three;
  a slot whose mapping was since removed protects nothing (log 43) -/
  recentMaps : List (Bool × Nat)
  /-- the MODEL's own field: how many times Core Break-Out was pulsed (R741, log 62) -/
  breakOuts : Nat
  /-- the MODEL's own field: accesses to peripheral devices, newest first (R192, log 27) -/
  devices : List DeviceAccess
  /-- the MODEL's own field: the last instruction completed without a synchronous trap (R737, log 62) -/
  completed : Bool
  deriving DecidableEq, Repr, Inhabited

/-- The stops with a fault: what spec/93 treats as `refuse` because the source calls it undefined. -/
inductive Fault where
  /-- PSW.PRS names a protection set the implementation lacks while SYSCON.PROTEN = 1 (U8, log 37). Raised by an access
  or a fetch that has to consult the set. Safe: the source calls it undefined. -/
  | missingProtectionSet
  /-- A PTE translates to peripheral space (R150, U9, log 38). Raised by a translated access or fetch. Safe: the source
  calls it undefined. -/
  | peripheralPage
  /-- An MTCR changes MMU_CON.V from translated code that is not identity mapped (R81, U11, log 39). Safe: the source
  calls it undefined. -/
  | mmuSwitchUndefined
  /-- The 16 bytes at DCX are not memory when a breakpoint trap stores there (R748, log 40). Safe: the source calls it
  not defined. -/
  | debugAreaUndefined
  deriving DecidableEq, Repr, Inhabited

/-- The stops with a refusal. -/
inductive Refusal where
  /-- No meaning for the instruction yet. Raised by the dispatcher. Safe. -/
  | notModelled (mnemonic : String)
  /-- A load, a store or a context load or store of the core reaches the CSFR window (D13, log 24). Raised by the data
  access check. Safe: the spec gives no next state. -/
  | csfrAccess
  deriving DecidableEq, Repr, Inhabited

/-- The register values of 70 R782 to R784 for given implementation parameters. A register with no value in the spec is
0: DESIGN CHOICE, unsafe (log 5). -/
def State.resetOf (p : Platform) : State :=
  { d := Vector.replicate 16 0, a := Vector.replicate 16 0,
    pc := p.resetPc &&& 0xFFFFFFFE, psw := 0x00000B80, pcxi := 0, fcx := 0, lcx := 0, isp := 0,
    icr := 0, biv := p.resetBiv &&& 0xFFFFFFFE, btv := p.resetBtv &&& 0xFFFFFFFE, syscon := 0,
    prot := Vector.replicate 4 ProtSet.reset,
    mmuCon := if p.hasMmu then p.tlbTsz.setWidth 32 <<< 5 else 0x00008000,
    mmuAsi := 0, mmuTva := 0, mmuTpa := 0, mmuTpx := 0, mmuTfa := 0,
    tlbA := List.replicate (p.tlbTsz.toNat + 1) Tte.invalid,
    tlbB := List.replicate (p.tlbTsz.toNat + 1) Tte.invalid,
    dbgsr := if p.bootHalt then 0x00000002 else 0, exevt := 0, crevt := 0, swevt := 0,
    trEvt := Vector.replicate 8 0, dms := p.resetDms &&& 0xFFFFFFFE, dcx := p.resetDcx &&& 0xFFFFFFF0,
    cpuSrc := Vector.replicate 4 Src.reset, sbSrc := Vector.replicate 4 Src.reset,
    extraSrc := p.extraNodes.map fun _ => Src.reset,
    endinit := false, nmiPending := false, daePending := false, fcdPending := false,
    mem := [], platform := p, inputs := [], freeCount := 0, recentMaps := [], breakOuts := 0, devices := [],
    completed := false }

/-- The machine right after reset (70 R782 to R784), with the default parameters and an empty memory. -/
def State.reset : State := State.resetOf Platform.default

end Sys2Proof.Machine
end

