-- ==== Sys2Proof/Machine/Bits.lean ====
section
/-!
DEFINITION. Sys2Proof/Machine/Bits.lean: bit fields of a word, byte order, and the named fields of the core registers
(10_state R40 to R60, 11_state_system R70 to R103).
-/
namespace Sys2Proof.Machine

/-- `w` with the n-bit field at bit `lo` replaced by `v` (00_scope R14). -/
def setField {n : Nat} (w : Word) (lo : Nat) (v : BitVec n) : Word :=
  (w &&& ~~~((BitVec.allOnes n).setWidth 32 <<< lo)) ||| (v.setWidth 32 <<< lo)

/-- `w` with bit `k` set to `b`. -/
def setBit (w : Word) (k : Nat) (b : Bool) : Word := setField w k (BitVec.ofBool b)

/-- Bit 0 cleared: a value moved into PC, BIV, BTV, DMS or a CPR loses bit 0 (D30, R55, R56, R72, R101). -/
def evenAddr (w : Word) : Word := w &&& 0xFFFFFFFE

/-- A word from its bytes, lowest address first; missing bytes are 0 (20_memory R132). -/
def wordOf (bs : List Byte) : Word :=
  bs.getD 3 0 ++ bs.getD 2 0 ++ bs.getD 1 0 ++ bs.getD 0 0
/-- A half-word from its bytes (20_memory R132). -/
def halfOf (bs : List Byte) : Half := bs.getD 1 0 ++ bs.getD 0 0
/-- A byte. -/
def byteOf (bs : List Byte) : Byte := bs.getD 0 0

/-- The 4-bit segment of an address (20_memory R121). -/
def segment (a : Word) : BitVec 4 := a.extractLsb' 28 4

/-- How many bytes a length is (30_encoding R307). -/
def lenBytes : Len → Word
  | .w16 => 2
  | .w32 => 4

/-! ### PSW (10_state R40 to R43) -/

/-- PSW.USB [31:24]. -/
def pswUsb (w : Word) : BitVec 8 := w.extractLsb' 24 8
/-- PSW.PRS [13:12]. -/
def pswPrs (w : Word) : BitVec 2 := w.extractLsb' 12 2
/-- PSW.IO [11:10]. -/
def pswIo (w : Word) : BitVec 2 := w.extractLsb' 10 2
/-- PSW.IS. -/
def pswIs (w : Word) : Bool := w.getLsbD 9
/-- PSW.GW. -/
def pswGw (w : Word) : Bool := w.getLsbD 8
/-- PSW.CDE. -/
def pswCde (w : Word) : Bool := w.getLsbD 7
/-- PSW.CDC [6:0]. -/
def pswCdc (w : Word) : BitVec 7 := w.extractLsb' 0 7
/-- PSW.RM [25:24] (45 R564). -/
def pswRm (w : Word) : BitVec 2 := w.extractLsb' 24 2

/-- The bits of PSW that are not reserved: all but [23:14] (10_state R44, log 10). -/
def pswMask : Word := 0xFF003FFF

/-- User-0 mode (60 R630). -/
def isUser0 (s : State) : Bool := pswIo s.psw = 0
/-- Supervisor mode; IO = 11B acts as Supervisor (R633, D22, log 20). -/
def isSupervisor (s : State) : Bool := s.psw.getLsbD 11

/-! ### Context pointers (10_state R45 to R49) -/

/-- The pointer PCX, FCX or LCX: bits [19:0]. -/
def ctxPtr (w : Word) : BitVec 20 := w.extractLsb' 0 20
/-- PCXI.PCPN. -/
def pcxiPcpn (w : Word) : BitVec 8 := w.extractLsb' 24 8
/-- PCXI.PIE. -/
def pcxiPie (w : Word) : Bool := w.getLsbD 23
/-- PCXI.UL: true is upper. -/
def pcxiUl (w : Word) : Bool := w.getLsbD 22
/-- The bits of PCXI that are not reserved: all but [21:20] (R45). -/
def pcxiMask : Word := 0xFFCFFFFF
/-- A PCXI from its fields (R45). -/
def mkPcxi (pcpn : BitVec 8) (pie ul : Bool) (pcx : BitVec 20) : Word :=
  pcpn ++ BitVec.ofBool pie ++ BitVec.ofBool ul ++ 0#2 ++ pcx
/-- `CSA_EA` (R46). -/
def csaEa (p : BitVec 20) : Word := p.extractLsb' 16 4 ++ 0#6 ++ p.extractLsb' 0 16 ++ 0#6

/-! ### ICR, SYSCON, MMU_CON, DBGSR -/

/-- ICR.PIPN (R54). -/
def icrPipn (w : Word) : BitVec 8 := w.extractLsb' 16 8
/-- ICR.IE (R54). -/
def icrIe (w : Word) : Bool := w.getLsbD 8
/-- ICR.CCPN (R54). -/
def icrCcpn (w : Word) : BitVec 8 := w.extractLsb' 0 8
/-- SYSCON.PROTEN (R57). -/
def sysProten (w : Word) : Bool := w.getLsbD 1
/-- MMU_CON.NOMMU (R81). -/
def mmuNone (w : Word) : Bool := w.getLsbD 15
/-- MMU_CON.TSZ (R81). -/
def mmuTsz (w : Word) : BitVec 7 := w.extractLsb' 5 7
/-- MMU_CON.SZB (R81). -/
def mmuSzb (w : Word) : BitVec 2 := w.extractLsb' 3 2
/-- MMU_CON.SZA (R81). -/
def mmuSza (w : Word) : BitVec 2 := w.extractLsb' 1 2
/-- MMU_CON.V (R81). -/
def mmuV (w : Word) : Bool := w.getLsbD 0
/-- Virtual mode: the MMU is present and enabled (21 R200). -/
def virtualMode (s : State) : Bool := mmuV s.mmuCon && !mmuNone s.mmuCon
/-- MMU_ASI.ASI (R82). -/
def asiOf (s : State) : BitVec 5 := s.mmuAsi.extractLsb' 0 5
/-- DBGSR.DE (R91). -/
def dbgDe (w : Word) : Bool := w.getLsbD 0
/-- DBGSR.HALT[0]: halted (R92). -/
def dbgHalted (w : Word) : Bool := w.getLsbD 1
/-- DBGSR.SUSP (R91). -/
def dbgSusp (w : Word) : Bool := w.getLsbD 4
/-- EVTA of an event register (R96). -/
def evtEvta (w : Word) : BitVec 3 := w.extractLsb' 0 3
/-- BBM of an event register (R93). -/
def evtBbm (w : Word) : Bool := w.getLsbD 3
/-- SUSP of an event register (R93). -/
def evtSusp (w : Word) : Bool := w.getLsbD 5

/-- Whether an address register is one of the system global registers A[0], A[1], A[8], A[9] (10_state R23). -/
def isGlobal (r : Fin 16) : Bool := r = 0 || r = 1 || r = 8 || r = 9

/-- The odd register of a pair specifier (10_state R22). -/
def pairOdd (r : Fin 16) : Fin 16 := r + 1
/-- Whether a pair specifier is odd: the case of OPD (60 R691). -/
def oddPair (r : Fin 16) : Bool := r.val % 2 = 1

end Sys2Proof.Machine
end

