-- ==== Sys2Proof/Machine/Memory.lean ====
section
/-!
DEFINITION. Sys2Proof/Machine/Memory.lean: the store of 2^32 bytes (20_memory R120) as a list of (address, byte) pairs in
one canonical form, and its reads and writes. Every access is made of bytes, little endian (R131, R132).
-/
namespace Sys2Proof.Machine

/-- What an unlisted address reads as. The spec gives memory no reset contents (70 R783): DESIGN CHOICE, unsafe (log 7). -/
def Memory.unlisted : Byte := 0

/-- The canonical form: addresses strictly rising, below 2^32, and no entry equal to what an unlisted address reads
as. -/
def Memory.wfFrom (lo : Nat) : List Host.Cell → Bool
  | [] => true
  | (a, b) :: rest => lo ≤ a && a < 2 ^ 32 && b != Memory.unlisted && Memory.wfFrom (a + 1) rest

/-- The memory is in its canonical form. -/
def Memory.wf (m : List Host.Cell) : Bool := Memory.wfFrom 0 m

/-- The byte at an address. -/
def Memory.get : List Host.Cell → Nat → Byte
  | [], _ => Memory.unlisted
  | (a, b) :: rest, x => if a = x then b else Memory.get rest x

/-- Writing a byte keeps the canonical form. -/
def Memory.set : List Host.Cell → Nat → Byte → List Host.Cell
  | [], x, v => if v = Memory.unlisted then [] else [(x, v)]
  | (a, b) :: rest, x, v =>
    if x < a then (if v = Memory.unlisted then (a, b) :: rest else (x, v) :: (a, b) :: rest)
    else if x = a then (if v = Memory.unlisted then rest else (a, v) :: rest)
    else (a, b) :: Memory.set rest x v

/-- The byte of the machine's memory at a physical address. -/
def State.memByte (s : State) (a : Word) : Byte := Memory.get s.mem a.toNat

/-- One byte written to the machine's memory. -/
def State.setMemByte (s : State) (a : Word) (b : Byte) : State := { s with mem := Memory.set s.mem a.toNat b }

/-- The `n` addresses from `a` upward, modulo 2^32. -/
def addrs (a : Word) (n : Nat) : List Word := (List.range n).map fun k => a + BitVec.ofNat 32 k

/-- Bytes written to memory at the given physical addresses, in order. -/
def State.setMemBytes (s : State) (pas : List Word) (bs : List Byte) : State :=
  (pas.zip bs).foldl (fun t p => t.setMemByte p.1 p.2) s

end Sys2Proof.Machine
end

