-- ==== Sys2Proof/Machine/Physical.lean ====
section
/-!
DEFINITION. Sys2Proof/Machine/Physical.lean: the physical address map: memory attributes and their properties
(20_memory R150 to R164), bus errors (60 R700 to R702), the service request control registers (10_state R36, R60 to
R63), and the reads and writes that reach a physical address.
-/
namespace Sys2Proof.Machine

/-- Whether a region holds an address. -/
def Region.has (r : Region) (a : Word) : Bool := r.base ≤ a.toNat && a.toNat < r.base + r.size

/-- The physical memory attribute of an address (R162, R163): segment FH is peripheral space; the emulator region has
its attribute while DBGSR.DE = 1; segment DH is cacheable or non-cacheable memory. DESIGN CHOICE (log 9): a segment other than
DH and FH that PMA itself names Emulator Space is that whatever DBGSR.DE is. -/
def attrOf (s : State) (pa : Word) : Attr :=
  if segment pa = 0xF then .peripheral
  else if dbgDe s.dbgsr && s.platform.emulator.any (·.has pa) then .emulator
  else if segment pa = 0xD then (if s.platform.pma[13] = .cacheable then .cacheable else .nonCacheable)
  else s.platform.pma[(segment pa).toNat]

/-- Property P, privileged peripheral (R150, R161). -/
def hasP (t : Attr) : Bool := t = .peripheral
/-- Property C, cacheable (R161). -/
def hasC (t : Attr) : Bool := t = .cacheable
/-- Property F, code fetch (R161). -/
def hasF (t : Attr) : Bool := t ≠ .peripheral
/-- Property D, data access: every attribute has it (R161). -/
def hasD (_ : Attr) : Bool := true

/-- Data scratchpad RAM: its region D000 0000H to D3FF FFFFH, and the implemented part (R164). -/
def inDspr (s : State) (pa : Word) : Bool :=
  pa.extractLsb' 26 6 = 0b110100#6 && (pa.extractLsb' 0 26).toNat < s.platform.dsprBytes
/-- Beyond the implemented part of either scratchpad region (R164). -/
def scratchRange (s : State) (pa : Word) : Bool :=
  (pa.extractLsb' 26 6 = 0b110100#6 && s.platform.dsprBytes ≤ (pa.extractLsb' 0 26).toNat) ||
  (pa.extractLsb' 26 6 = 0b110101#6 && s.platform.psprBytes ≤ (pa.extractLsb' 0 26).toNat)
/-- The bus reports an error for the address, or it lies beyond an implemented scratchpad (R700 to R702). DESIGN CHOICE
(log 27): the answer depends on the address alone, so a peripheral's specially protected register serves User-1 as it
serves Supervisor; R192 leaves that to the platform. -/
def busError (s : State) (pa : Word) : Bool :=
  s.platform.busErrors.any (·.has pa) || scratchRange s pa

/-- The address lies in the 64 KByte CSFR space (10_state R34). -/
def inCsfrWindow (s : State) (pa : Word) : Bool := (pa - s.platform.csfrBase).toNat < 0x10000

/-! ### Service request nodes -/

/-- What an SRC reads as (10_state R61): SETR and CLRR read 0. -/
def Src.word (n : Src) : Word :=
  0#18 ++ BitVec.ofBool n.srr ++ BitVec.ofBool n.sre ++ n.tos ++ 0#2 ++ n.srpn

/-- A write of the word `w` to an SRC (10_state R61). -/
def Src.write (n : Src) (w : Word) : Src :=
  { srr := if w.getLsbD 15 && !w.getLsbD 14 then true
           else if w.getLsbD 14 && !w.getLsbD 15 then false else n.srr,
    sre := w.getLsbD 12, tos := w.extractLsb' 10 2, srpn := w.extractLsb' 0 8 }

/-- How many node numbers there are: 0 to 3 CPU_SRC, 4 to 7 CPU_SBSRC, then the platform's. -/
def nodeCount (s : State) : Nat := 8 + s.extraSrc.length

/-- The node of a number; a CPU_SBSRC the implementation lacks is none (R103). -/
def getNode (s : State) (k : Nat) : Option Src :=
  if h : k < 4 then some s.cpuSrc[k]
  else if h : k - 4 < 4 then (if k - 4 < s.platform.nSwBreakpoints then some s.sbSrc[k - 4] else none)
  else s.extraSrc[k - 8]?

/-- One node changed; the others stay. -/
def setNode (s : State) (k : Nat) (n : Src) : State :=
  if h : k < 4 then { s with cpuSrc := s.cpuSrc.set k n }
  else if h : k - 4 < 4 then
    (if k - 4 < s.platform.nSwBreakpoints then { s with sbSrc := s.sbSrc.set (k - 4) n } else s)
  else { s with extraSrc := s.extraSrc.set (k - 8) n }

/-- The address of a node's SRC (10_state R36). -/
def nodeAddr (s : State) (k : Nat) : Word :=
  if k < 4 then s.platform.cpsBase + 0xFFFC - BitVec.ofNat 32 (4 * k)
  else if k < 8 then s.platform.cpsBase + 0xFFBC - BitVec.ofNat 32 (4 * (k - 4))
  else s.platform.extraNodes.getD (k - 8) 0

/-- The node whose SRC holds the byte at an address, if any. -/
def nodeAt (s : State) (pa : Word) : Option Nat :=
  (List.range (nodeCount s)).find? fun k => (getNode s k).isSome && (pa - nodeAddr s k).toNat < 4

/-! ### Reads and writes -/

/-- The k-th free byte of the next free value (log 11). -/
def freeByte (s : State) (k : Nat) : Byte := (Config.freeWord s.freeCount k).extractLsb' 0 8

/-- A byte of peripheral space that is no SRC: a device whose registers the spec does not give (20_memory R192). -/
def isDevice (s : State) (pa : Word) : Bool := hasP (attrOf s pa) && (nodeAt s pa).isNone

/-- The byte a read at `pa` gives, `k` its number in the access: an SRC, a device (a free value, log 27), or memory. -/
def readByteAt (s : State) (pa : Word) (k : Nat) : Byte :=
  match (nodeAt s pa).bind fun n => (getNode s n).map fun r => (r.word, nodeAddr s n) with
  | some (w, base) => w.extractLsb' (8 * (pa - base).toNat) 8
  | none => if isDevice s pa then freeByte s k else s.memByte pa

/-- One device access noted, one free value used up. -/
def State.logDevice (s : State) (write : Bool) (pas : List Word) (bs : List Byte) : State :=
  { s with freeCount := s.freeCount + 1,
           devices := { write := write, addr := (pas.getD 0 0).toNat, bytes := bs } :: s.devices }

/-- A read of physical addresses: its bytes, and the state after it, which differs only when a device was read. -/
def physRead (s : State) (pas : List Word) : List Byte × State :=
  let bs := (pas.zip (List.range pas.length)).map fun p => readByteAt s p.1 p.2
  (bs, if pas.any (isDevice s) then s.logDevice false pas bs else s)

/-- Whether a byte written at `pa` goes to memory: it is no device, no SRC, and the bus reports no error. -/
def plainMemory (s : State) (pa : Word) : Bool :=
  !hasP (attrOf s pa) && (nodeAt s pa).isNone && !busError s pa

/-- The part of a write that goes to memory. -/
def writeMemory (s : State) (pas : List Word) (bs : List Byte) : State :=
  let sel := (pas.zip bs).filter fun p => plainMemory s p.1
  s.setMemBytes (sel.map Prod.fst) (sel.map Prod.snd)

/-- The byte that an access gives byte `j` of node `k`'s SRC, if it covers it. `sel` pairs the addresses written with their
bytes. -/
def lane (sel : List (Word × Byte)) (s : State) (k j : Nat) : Option Byte :=
  sel.lookup (nodeAddr s k + BitVec.ofNat 32 j)

/-- The write of one access to node `k`: the bytes of its SRC that the access covers, the others as they read (R61,
log 28). -/
def writeNode (sel : List (Word × Byte)) (s : State) (k : Nat) : State :=
  match getNode s k with
  | none => s
  | some r =>
    if (List.range 4).any fun j => (lane sel s k j).isSome then
      setNode s k (r.write
        (wordOf ((List.range 4).map fun j => (lane sel s k j).getD (r.word.extractLsb' (8 * j) 8))))
    else s

/-- The part of a write at state `s` that goes to SRCs; `t` is the state after the part that goes to memory. -/
def writeNodes (s : State) (pas : List Word) (bs : List Byte) (t : State) : State :=
  if pas.any (fun pa => (nodeAt s pa).isSome) then
    (List.range (nodeCount s)).foldl (writeNode ((pas.zip bs).filter fun p => !busError s p.1)) t
  else t

/-- The part of a write at state `s` that goes to a device is noted. -/
def writeDevice (s : State) (pas : List Word) (bs : List Byte) (t : State) : State :=
  if pas.any (isDevice s) then t.logDevice true pas bs else t

/-- A bus error on a write sets `dae_pending` (60 R702). -/
def writeError (s : State) (pas : List Word) (t : State) : State :=
  { t with daePending := t.daePending || pas.any (busError s) }

/-- A write of physical addresses (R175 step 7): memory and SRCs take their bytes, a device access is noted, and a byte
for which the bus reports an error is not written and sets `dae_pending` (60 R702). DESIGN CHOICE (log 65): a store of which only
some bytes meet a bus error writes its other bytes. -/
def physWrite (s : State) (pas : List Word) (bs : List Byte) : State :=
  writeError s pas (writeDevice s pas bs (writeNodes s pas bs (writeMemory s pas bs)))

end Sys2Proof.Machine
end

