-- ==== Sys2Proof/Machine/Trap.lean ====
section
/-!
DEFINITION. Sys2Proof/Machine/Trap.lean: the synchronous traps of Table 9 (60 R667) with their class and TIN, and the ways
a meaning can stop short of its own effect.
-/
namespace Sys2Proof.Machine

/-- The synchronous traps of Table 9 but FCD, which is taken at a boundary, and FCU, which has its own entry (R672).
VAF and VAP carry the faulting virtual address (R244). -/
inductive Trap where
  | vaf (va : Word)
  | vap (va : Word)
  | priv
  | mpr
  | mpw
  | mpx
  | mpp
  | mpn
  | grwp
  | iopc
  | uopc
  | opd
  | aln
  | mem
  | cdo
  | cdu
  | csu
  | ctyp
  | nest
  | pse
  | dse
  | ovf
  | sovf
  /-- the system call, with its TIN and the length of the SYSCALL (R668) -/
  | sys (tin : BitVec 8) (len : Len)
  deriving DecidableEq, Repr, Inhabited

/-- The trap class number (Table 9, R667). -/
def Trap.tcn : Trap → BitVec 3
  | .vaf _ | .vap _ => 0
  | .priv | .mpr | .mpw | .mpx | .mpp | .mpn | .grwp => 1
  | .iopc | .uopc | .opd | .aln | .mem => 2
  | .cdo | .cdu | .csu | .ctyp | .nest => 3
  | .pse | .dse => 4
  | .ovf | .sovf => 5
  | .sys _ _ => 6

/-- The trap identification number (Table 9, R667). -/
def Trap.tin : Trap → BitVec 8
  | .vaf _ => 0
  | .vap _ => 1
  | .priv => 1
  | .mpr => 2
  | .mpw => 3
  | .mpx => 4
  | .mpp => 5
  | .mpn => 6
  | .grwp => 7
  | .iopc => 1
  | .uopc => 2
  | .opd => 3
  | .aln => 4
  | .mem => 5
  | .cdo => 2
  | .cdu => 3
  | .csu => 5
  | .ctyp => 6
  | .nest => 7
  | .pse => 1
  | .dse => 2
  | .ovf => 1
  | .sovf => 2
  | .sys n _ => n

/-- The return address of a synchronous trap raised by the instruction at `pc` (R668). -/
def Trap.returnAddress (t : Trap) (pc : Word) : Word :=
  match t with
  | .sys _ len => pc + lenBytes len
  | _ => pc

/-- Why an instruction's own effect does not happen. -/
inductive Stop where
  /-- a synchronous trap is taken instead -/
  | trap (t : Trap)
  /-- a context save failed: the reduced FCU entry is taken instead (R672) -/
  | fcu
  /-- a debug action took over before the instruction: the state it left (61 R737) -/
  | debugged (s : State)
  | fault (f : Fault)
  | refuse (r : Refusal)
  deriving DecidableEq, Repr

/-- The outcome of a meaning before traps are taken. -/
abbrev Res := Except Stop State

/-- Raise a trap when a condition holds. -/
def raiseIf (b : Bool) (t : Trap) : Except Stop Unit := if b then .error (.trap t) else .ok ()

/-- Stop when a condition holds. -/
def stopIf (b : Bool) (e : Stop) : Except Stop Unit := if b then .error e else .ok ()

end Sys2Proof.Machine
end

