-- ==== Sys2Proof/Machine/Protection.lean ====
section
/-!
DEFINITION. Sys2Proof/Machine/Protection.lean: the range-based protection system (21 R202 to R209) and PTE translation
(21 R200, R240 to R245).
-/
namespace Sys2Proof.Machine

/-! ### Ranges -/

/-- The protection register set PSW.PRS selects (R202). -/
def protSet (s : State) : ProtSet := s.prot[(pswPrs s.psw).toNat]

/-- PSW.PRS names a set the implementation lacks (U8). -/
def protSetMissing (s : State) : Bool := s.platform.nProtSets ≤ (pswPrs s.psw).toNat

/-- Data range n of a set holds an address (R203). -/
def inData (p : ProtSet) (n : Fin 4) (a : Word) : Bool := p.dprL[n] ≤ a && a < p.dprU[n]
/-- Code range n of a set holds an address (R203). -/
def inCode (p : ProtSet) (n : Fin 4) (a : Word) : Bool := p.cprL[n] ≤ a && a < p.cprU[n]
/-- Bit `k` of byte `n` of a mode register (11 R73, R74). -/
def modeBit (m : Word) (n : Fin 4) (k : Nat) : Bool := m.getLsbD (8 * n.val + k)

/-- The data ranges of the implementation (R202). -/
def dataRanges (s : State) : List (Fin 4) := (List.finRange 4).filter fun n => n.val < s.platform.nDataRanges
/-- The code ranges of the implementation (R202). -/
def codeRanges (s : State) : List (Fin 4) := (List.finRange 4).filter fun n => n.val < s.platform.nCodeRanges

/-- `read_ok` (R204). -/
def readOk (s : State) (a : Word) : Bool :=
  (dataRanges s).any fun n => inData (protSet s) n a && modeBit (protSet s).dpm n 6
/-- `write_ok` (R204). -/
def writeOk (s : State) (a : Word) : Bool :=
  (dataRanges s).any fun n => inData (protSet s) n a && modeBit (protSet s).dpm n 7
/-- `exec_ok` (R204). -/
def execOk (s : State) (a : Word) : Bool :=
  (codeRanges s).any fun n => inCode (protSet s) n a && modeBit (protSet s).cpm n 7

/-- The range check applies to a directly translated access at `pa` (R206, R208, R209). -/
def rangeChecked (s : State) (pa : Word) : Bool :=
  sysProten s.syscon && attrOf s pa ≠ .peripheral && attrOf s pa ≠ .emulator

/-! ### Translation -/

/-- The path of a virtual address is PTE translation (R200). -/
def usesPte (s : State) (va : Word) : Bool := virtualMode s && !va.getLsbD 31

/-- The bits of a page number, aligned to address bit 10, that a page of size code `psz` does not use (R240, R531). -/
def pageUnused (psz : BitVec 2) : BitVec 22 := ~~~(BitVec.allOnes 22 <<< (2 * psz.toNat))

/-- `vpn(va, sz)` (R240), aligned to address bit 10. -/
def vpnOf (va : Word) (psz : BitVec 2) : BitVec 22 := va.extractLsb' 10 22 &&& ~~~pageUnused psz

/-- `matches(t, va)` (R241). -/
def Tte.hits (t : Tte) (asi : BitVec 5) (va : Word) : Bool :=
  t.v && t.vpn &&& ~~~pageUnused t.psz = vpnOf va t.psz && (t.g || t.asi = asi)

/-- The TTE that translates a virtual address (R241); in a defined state at most one matches. DESIGN CHOICE (log 43): of several,
in a state that an undefined TLBMAP left, the first of TLB-A, then of TLB-B, does. -/
def lookupTte (s : State) (va : Word) : Option Tte := (s.tlbA ++ s.tlbB).find? fun t => t.hits (asiOf s) va

/-- `{t.PPN, offset(va, sz)}` (R240). -/
def Tte.translate (t : Tte) (va : Word) : Word :=
  ((t.ppn &&& ~~~pageUnused t.psz) ++ 0#10) ||| (va &&& ((pageUnused t.psz) ++ BitVec.allOnes 10))

/-- The physical address of a virtual address, `none` where PTE translation is needed and no TTE is there (R242). -/
def physOf (s : State) (va : Word) : Option Word :=
  if usesPte s va then (lookupTte s va).map (·.translate va) else some va

/-- The PTE that an address needs denies the access (R242): the checks on XE, RE, WE asked for. -/
def pteDenies (s : State) (va : Word) (x r w : Bool) : Bool :=
  usesPte s va && match lookupTte s va with
    | some t => (x && !t.xe) || (r && !t.re) || (w && !t.we)
    | none => false

/-- A User-0 access in virtual mode to an upper segment that is not peripheral space (R245). -/
def upperDenied (s : State) (va : Word) : Bool :=
  virtualMode s && va.getLsbD 31 && isUser0 s && !hasP (attrOf s va)

/-- Step 4 of R175 and step 2 of R176 on the virtual addresses `vas` of an access at `ea`: VAF before VAP (60 R720), then
the physical addresses. The trap's address is the effective address or the pc, whichever byte it comes from (R244, 60
R676, log 32). A PTE into peripheral space is undefined (R150, U9). -/
def translateAll (s : State) (ea : Word) (vas : List Word) (x r w : Bool) : Except Stop (List Word) := do
  raiseIf (vas.any fun va => (physOf s va).isNone) (.vaf ea)
  raiseIf (vas.any fun va => pteDenies s va x r w || upperDenied s va) (.vap ea)
  stopIf (vas.any fun va => usesPte s va && ((physOf s va).any fun pa => hasP (attrOf s pa))) (.fault .peripheralPage)
  .ok (vas.map fun va => (physOf s va).getD 0#32)

end Sys2Proof.Machine
end

