-- ==== Sys2Proof/Machine/Operands.lean ====
section
/-!
DEFINITION. Sys2Proof/Machine/Operands.lean: every operand form: register reads and writes, second operands, the seven
addressing modes (40 R341 to R351) and the targets of CALL and JL (42 R445, R460).
-/
namespace Sys2Proof.Machine

/-! ### Registers -/

/-- D[r]. -/
def State.dr (s : State) (r : Fin 16) : Word := s.d[r]
/-- A[r]. -/
def State.ar (s : State) (r : Fin 16) : Word := s.a[r]
/-- `D[r] <- v`. -/
def State.setD (s : State) (r : Fin 16) (v : Word) : State := { s with d := s.d.set r v }
/-- `A[r] <- v`. -/
def State.setA (s : State) (r : Fin 16) (v : Word) : State := { s with a := s.a.set r v }

/-- A second operand (R402, R412): a register, or nine bits sign extended (PRESUMED, log 2). -/
def State.op2 (s : State) : Op2 → Word
  | .reg b => s.dr b
  | .imm c => c.signExtend 32

/-- The moved operand of CMOV (R411): a register, or four bits sign extended (PRESUMED, log 2). -/
def State.movSrc (s : State) : MovSrc → Word
  | .reg b => s.dr b
  | .imm c => c.signExtend 32

/-! ### Addressing modes -/

/-- Absolute addressing (R341). -/
def absEa (off : BitVec 18) : Word := off.extractLsb' 14 4 ++ 0#14 ++ off.extractLsb' 0 14

/-- `reverse16` (R349): bit n of the result is bit 15 - n. -/
def reverse16 (x : Half) : Half := x.reverse

/-- The index I of a circular or bit-reverse pair: the low half of the odd register (R346, R348). -/
def pairIndex (s : State) (p : Fin 16) : Half := (s.ar (pairOdd p)).extractLsb' 0 16
/-- The length L or modifier M of a pair: the high half of the odd register (R346, R348). -/
def pairHigh (s : State) (p : Fin 16) : Half := (s.ar (pairOdd p)).extractLsb' 16 16

/-- The new index of circular addressing (R346): `I + off`, brought back by one buffer length when it left the buffer,
its low 16 bits. -/
def circNext (i l : Half) (off : BitVec 10) : Half :=
  let tmp : Int := (i.toNat : Int) + off.toInt
  if tmp < 0 then BitVec.ofInt 16 (tmp + (l.toNat : Int))
  else if (l.toNat : Int) ≤ tmp then BitVec.ofInt 16 (tmp - (l.toNat : Int))
  else BitVec.ofInt 16 tmp

/-- The new index of bit-reverse addressing (R348). -/
def bitRevNext (i m : Half) : Half := reverse16 (reverse16 i + reverse16 m)

/-- The effective address of a mode (R341 to R348). -/
def modeEa (s : State) : Mode → Word
  | .abs off => absEa off
  | .base b off => s.ar b + off.signExtend 32
  | .baseLong b off => s.ar b + off.signExtend 32
  | .preInc b off => s.ar b + off.signExtend 32
  | .postInc b _ => s.ar b
  | .circ p _ => s.ar p + (pairIndex s p).setWidth 32
  | .bitRev p => s.ar p + (pairIndex s p).setWidth 32

/-- The base address a mode adds an offset to, for the segment rule (20_memory R123); absolute addressing has none. -/
def modeBase (s : State) : Mode → Option Word
  | .abs _ => none
  | .base b _ | .baseLong b _ | .preInc b _ | .postInc b _ => some (s.ar b)
  | .circ p _ | .bitRev p => some (s.ar p)

/-- The address register a mode updates, and its new value (R344 to R348). -/
def modeUpdate (s : State) : Mode → Option (Fin 16 × Word)
  | .abs _ | .base _ _ | .baseLong _ _ => none
  | .preInc b off => some (b, s.ar b + off.signExtend 32)
  | .postInc b off => some (b, s.ar b + off.signExtend 32)
  | .circ p off => some (pairOdd p, pairHigh s p ++ circNext (pairIndex s p) (pairHigh s p) off)
  | .bitRev p => some (pairOdd p, pairHigh s p ++ bitRevNext (pairIndex s p) (pairHigh s p))

/-- The register a mode updates. -/
def modeTarget : Mode → Option (Fin 16)
  | .abs _ | .base _ _ | .baseLong _ _ => none
  | .preInc b _ | .postInc b _ => some b
  | .circ p _ | .bitRev p => some (pairOdd p)

/-- The update of a mode applied. -/
def applyUpdate (s : State) (u : Option (Fin 16 × Word)) : State :=
  match u with
  | none => s
  | some (r, v) => s.setA r v

/-- The virtual addresses of the bytes of a `k`-byte access (R346): a circular access wraps from the end of the buffer to
its start; every other is consecutive. -/
def modeBytes (s : State) (m : Mode) (k : Nat) : List Word :=
  match m with
  | .circ p _ =>
    (List.range k).map fun j =>
      s.ar p + BitVec.ofNat 32 (((pairIndex s p).toNat + j) % (pairHigh s p).toNat)
  | _ => addrs (modeEa s m) k

/-- The addresses the range protection is asked about: the effective address, and for a circular access that wraps the
start of the buffer too (R222, R347, log 33, log 34). -/
def modeHeads (s : State) (m : Mode) (k : Nat) : List Word :=
  match m with
  | .circ p _ =>
    if (pairHigh s p).toNat < (pairIndex s p).toNat + k then [modeEa s m, s.ar p] else [modeEa s m]
  | _ => [modeEa s m]

/-- The additional ALN conditions of circular addressing (R347). -/
def circMisaligned (s : State) (m : Mode) (k : Nat) : Bool :=
  match m with
  | .circ p _ =>
    (s.ar p).toNat % 8 ≠ 0 || (pairHigh s p).toNat % k ≠ 0 || (pairHigh s p).toNat ≤ (pairIndex s p).toNat
  | _ => false

/-- A circular or bit-reverse mode whose pair specifier is odd: OPD (60 R691). -/
def modeOddPair : Mode → Bool
  | .circ p _ | .bitRev p => oddPair p
  | _ => false

/-- The mode updates a global address register (R351). -/
def modeWritesGlobal (m : Mode) : Bool := (modeTarget m).any isGlobal

/-- A context mode as an addressing mode (42 R454). -/
def ctxMode : CtxMode → Mode
  | .abs off => .abs off
  | .base b off => .base b off

/-- An LEA mode as an addressing mode (40 R370). -/
def leaMode : LeaMode → Mode
  | .abs off => .abs off
  | .base b off => .base b off
  | .baseLong b off => .baseLong b off

/-! ### Targets -/

/-- The target of CALL or JL (42 R445, R460): relative to the instruction's own address, in half-words (G14); absolute
(family, log 54); or an address register with bit 0 dropped (D30). -/
def targetOf (s : State) : Target → Word
  | .rel disp => s.pc + (disp.signExtend 32 <<< 1)
  | .abs disp => disp.extractLsb' 20 4 ++ 0#7 ++ disp.extractLsb' 0 20 ++ 0#1
  | .ind a => evenAddr (s.ar a)

/-- An immediate width of EXTR.U, 1 to 32 in five bits (40 R373). DESIGN CHOICE: 00000B is 32 (log 49). -/
def widthOf (w : BitVec 5) : Nat := if w = 0 then 32 else w.toNat

/-- Position and width of EXTR.U (40 R373). DESIGN CHOICE: the width of the pair form is all of D[e+1] (log 49). -/
def fieldOf (s : State) : BitField → Nat × Nat
  | .imm pos width => (pos.toNat, widthOf width)
  | .reg d width => (((s.dr d).extractLsb' 0 5).toNat, widthOf width)
  | .pair e => (((s.dr e).extractLsb' 0 5).toNat, (s.dr (pairOdd e)).toNat)

end Sys2Proof.Machine
end

