-- ==== Sys2Proof/Machine/Access.lean ====
section
/-!
DEFINITION. Sys2Proof/Machine/Access.lean: the checks on one data access, in the order of 20_memory R175 and Table 10
(60 R720).
-/
namespace Sys2Proof.Machine

/-- How an access is checked: its size; its alignment rule (20_memory R135); whether it reads and writes; whether the
read asks for read permission of the range protection (ST.T does not: D31, log 35). -/
structure AccessKind where
  size : Nat
  align : Nat
  /-- half-word alignment suffices in cached memory and data scratchpad RAM (R135, the double-words) -/
  dword : Bool
  reads : Bool
  writes : Bool
  readRange : Bool
  deriving DecidableEq, Repr, Inhabited

/-- A load of `k` bytes with alignment `al`. -/
def AccessKind.load (k al : Nat) : AccessKind :=
  { size := k, align := al, dword := false, reads := true, writes := false, readRange := true }
/-- A store of `k` bytes with alignment `al`. -/
def AccessKind.store (k al : Nat) : AccessKind :=
  { size := k, align := al, dword := false, reads := false, writes := true, readRange := false }
/-- LD.D (R135). -/
def AccessKind.loadD : AccessKind := { AccessKind.load 8 4 with dword := true }
/-- ST.D (R135). -/
def AccessKind.storeD : AccessKind := { AccessKind.store 8 4 with dword := true }
/-- LDMST and SWAP.W (R135, R180). -/
def AccessKind.rmw : AccessKind :=
  { size := 4, align := 4, dword := false, reads := true, writes := true, readRange := true }
/-- ST.T (R135, 40 R367, D31). -/
def AccessKind.bit : AccessKind :=
  { size := 1, align := 1, dword := false, reads := true, writes := true, readRange := false }

/-- `cacheable(va, pa)` of an address that has a translation (21 R262). -/
def cacheable (s : State) (va pa : Word) : Bool :=
  (!usesPte s va || (lookupTte s va).any (·.c)) && hasC (attrOf s pa)

/-- `align(k, EA)` (20_memory R136). DEDUCED: an address with no translation targets neither cached memory nor data
scratchpad RAM (log 36). -/
def alignOf (s : State) (kind : AccessKind) (ea : Word) : Nat :=
  if kind.dword && (physOf s ea).any (fun pa => cacheable s ea pa || inDspr s pa) then 2 else kind.align

/-- MEM: another segment than the base, or a datum across two segments (20_memory R123). -/
def memTrap (s : State) (m : Mode) (k : Nat) : Bool :=
  (modeBase s m).any (fun b => segment (modeEa s m) ≠ segment b) ||
  (modeBytes s m k).any (fun a => segment a ≠ segment (modeEa s m))

/-- The range protection is asked about a directly translated address (21 R209). -/
def headChecked (s : State) (a : Word) : Bool := !usesPte s a && rangeChecked s a

/-- The checks of R175 on one data access; the physical addresses of its bytes where all pass. -/
def checkData (s : State) (m : Mode) (kind : AccessKind) : Except Stop (List Word) := do
  let ea := modeEa s m
  let heads := modeHeads s m kind.size
  raiseIf (memTrap s m kind.size) .mem
  raiseIf (circMisaligned s m kind.size || ea.toNat % alignOf s kind ea ≠ 0) .aln
  raiseIf (ea = 0) .mpn
  let pas ← translateAll s ea (modeBytes s m kind.size) false kind.reads kind.writes
  stopIf (heads.any (headChecked s) && protSetMissing s) (.fault .missingProtectionSet)
  raiseIf (kind.readRange && heads.any fun a => headChecked s a && !readOk s a) .mpr
  raiseIf (kind.writes && heads.any fun a => headChecked s a && !writeOk s a) .mpw
  raiseIf (isUser0 s && pas.any fun pa => hasP (attrOf s pa)) .mpp
  stopIf (pas.any (inCsfrWindow s)) (.refuse .csfrAccess)
  raiseIf (pas.any (fun pa => !hasD (attrOf s pa)) || (kind.reads && pas.any (busError s))) .dse
  .ok pas

/-- The implementation declares the CSA restriction and no context save area may be at the address (D15, R437). -/
def csaForbidden (s : State) (pa : Word) : Bool :=
  s.platform.csaRestriction && !(s.platform.csaRegions.any (·.has pa))

/-- What can go wrong on a context restore, or a context load or store, at a physical address (R175 steps 6 and 7, R693,
log 26). -/
def checkCsa (s : State) (ea : Word) (reads : Bool) : Except Stop Unit := do
  raiseIf (isUser0 s && (addrs ea 64).any fun pa => hasP (attrOf s pa)) .mpp
  stopIf ((addrs ea 64).any (inCsfrWindow s)) (.refuse .csfrAccess)
  raiseIf ((addrs ea 64).any (fun pa => !hasD (attrOf s pa)) || (reads && (addrs ea 64).any (busError s))) .dse

/-- The checks on LDLCX, LDUCX, STLCX and STUCX (42 R435, R454 to R457): as R175 without translation and range
protection, on 64 bytes aligned to 64 (20_memory R136; D29). The CSA restriction is a MEM (60 R693). -/
def checkCtx (s : State) (m : Mode) (reads : Bool) : Except Stop (List Word) := do
  let ea := modeEa s m
  raiseIf ((modeBase s m).any (fun b => segment ea ≠ segment b) || segment (ea + 63) ≠ segment ea || csaForbidden s ea) .mem
  raiseIf (ea.toNat % 64 ≠ 0) .aln
  raiseIf (ea = 0) .mpn
  checkCsa s ea reads
  .ok (addrs ea 64)

/-- GRWP: a global address register would be written without permission (60 R684). -/
def grwp (s : State) (writesGlobal : Bool) : Except Stop Unit := raiseIf (writesGlobal && !pswGw s.psw) .grwp

/-- OPD: a register pair operand names an odd register (60 R691, D12). -/
def opd (odd : Bool) : Except Stop Unit := raiseIf odd .opd

end Sys2Proof.Machine
end

