-- ==== Sys2Proof/Machine/Flags.lean ====
section
/-!
DEFINITION. Sys2Proof/Machine/Flags.lean: every computation on PSW.USB: the arithmetic status flags (41 R400 to R407), the
floating-point exception flags (45 R570 to R572), and the call depth counter (42 R440).
-/
namespace Sys2Proof.Machine

/-- PSW.C (41 R400). -/
def flagC (w : Word) : Bool := w.getLsbD 31
/-- PSW.V. -/
def flagV (w : Word) : Bool := w.getLsbD 30
/-- PSW.SV. -/
def flagSV (w : Word) : Bool := w.getLsbD 29
/-- PSW.AV. -/
def flagAV (w : Word) : Bool := w.getLsbD 28
/-- PSW.SAV. -/
def flagSAV (w : Word) : Bool := w.getLsbD 27

/-- PSW with C, V, SV, AV and SAV replaced. -/
def setArith (psw : Word) (c v sv av sav : Bool) : Word :=
  setField psw 27 (BitVec.ofBool c ++ BitVec.ofBool v ++ BitVec.ofBool sv ++ BitVec.ofBool av ++ BitVec.ofBool sav)

/-- The flags of an addition (41 R401 to R403; V, SV, AV, SAV PRESUMED, log 48): C the carry out of bit 31, V that the
signed sum is not representable, AV bit 31 xor bit 30 of the result, SV and SAV sticky. -/
def addFlags (psw x y : Word) (cin : Bool) : Word :=
  let r := x + y + (BitVec.ofBool cin).setWidth 32
  let exact : Int := x.toInt + y.toInt + (cin.toNat : Int)
  let v := decide (exact < -2147483648) || decide (2147483647 < exact)
  let av := r.getLsbD 31 ^^ r.getLsbD 30
  setArith psw (decide (2 ^ 32 ≤ x.toNat + y.toNat + cin.toNat)) v (flagSV psw || v) av (flagSAV psw || av)

/-- The sum of an addition. -/
def addSum (x y : Word) (cin : Bool) : Word := x + y + (BitVec.ofBool cin).setWidth 32

/-- RSTV clears V, SV, AV and SAV (41 R407; PRESUMED, log 48). -/
def clearOverflow (psw : Word) : Word := setField psw 27 (0 : BitVec 4)

/-- The IEEE-754 exceptions one floating-point instruction raises (45 R570). -/
structure FpFlags where
  fi : Bool
  fv : Bool
  fz : Bool
  fu : Bool
  fx : Bool
  deriving DecidableEq, Repr, Inhabited

/-- No exception. -/
def FpFlags.none : FpFlags := { fi := false, fv := false, fz := false, fu := false, fx := false }

/-- `fp_flags` (45 R571): FI, FV, FZ, FU, FX are sticky; FS is written every time. -/
def fpFlags (psw : Word) (f : FpFlags) : Word :=
  setField psw 26
    (BitVec.ofBool (f.fi || f.fv || f.fz || f.fu || f.fx)
      ++ BitVec.ofBool (psw.getLsbD 30 || f.fi) ++ BitVec.ofBool (psw.getLsbD 29 || f.fv)
      ++ BitVec.ofBool (psw.getLsbD 28 || f.fz) ++ BitVec.ofBool (psw.getLsbD 27 || f.fu)
      ++ BitVec.ofBool (psw.getLsbD 26 || f.fx))

/-- UPDFL (45 R578; operand format PRESUMED, log 51): the bits of PSW[31:24] that the mask selects take the value. -/
def updateFlags (psw v : Word) : Word :=
  let mask : BitVec 8 := v.extractLsb' 8 8
  setField psw 24 ((pswUsb psw &&& ~~~mask) ||| (v.extractLsb' 0 8 &&& mask))

/-! ### The call depth counter (10_state R43, 42 R440) -/

/-- The number of count bits of PSW.CDC: 6 less the leading ones, none for 1111110B and 1111111B. -/
def cdcWidth (cdc : BitVec 7) : Nat :=
  if !cdc.getLsbD 6 then 6 else if !cdc.getLsbD 5 then 5 else if !cdc.getLsbD 4 then 4
  else if !cdc.getLsbD 3 then 3 else if !cdc.getLsbD 2 then 2 else if !cdc.getLsbD 1 then 1 else 0

/-- `count_bits` as a number. -/
def cdcCount (cdc : BitVec 7) : Nat := cdc.toNat % 2 ^ cdcWidth cdc

/-- Counting is enabled: PSW.CDE = 1 and CDC is not 1111111B. -/
def cdcEnabled (psw : Word) : Bool := pswCde psw && pswCdc psw ≠ 0x7F

/-- `cdc_at_max`: every count bit is 1; 1111111B has no counter. -/
def cdcAtMax (cdc : BitVec 7) : Bool := cdc ≠ 0x7F && cdcCount cdc = 2 ^ cdcWidth cdc - 1

/-- `cdc_is_zero`. -/
def cdcIsZero (cdc : BitVec 7) : Bool := cdcCount cdc = 0

/-- PSW after the count of a CALL (42 R445): the counter incremented where counting is enabled, CDE = 1. -/
def callPsw (psw : Word) : Word :=
  setBit (if cdcEnabled psw then setField psw 0 (pswCdc psw + 1) else psw) 7 true

end Sys2Proof.Machine
end

