-- ==== Sys2Proof/Machine/Ops.lean ====
section
/-!
DEFINITION. Sys2Proof/Machine/Ops.lean: the shared operations: context save and restore (42 R433, R434), taking an
exception (60 R655, R670, R672) and returning from one (42 R443, R444), and how a meaning ends.
-/
namespace Sys2Proof.Machine

/-- `PC <- PC + Len` (10_state R30), modulo 2^32 (log 58). -/
def advance (len : Len) (s : State) : State := { s with pc := s.pc + lenBytes len }

/-- One more free value is used up (log 11). -/
def useFree (s : State) : State := { s with freeCount := s.freeCount + 1 }

/-! ### Contexts (10_state R52; 42 R430 to R439) -/

/-- The 16 words of the upper context (R52; order PRESUMED, log 46). -/
def upperWords (s : State) : List Word :=
  [s.pcxi, s.psw, s.ar 10, s.ar 11, s.dr 8, s.dr 9, s.dr 10, s.dr 11,
   s.ar 12, s.ar 13, s.ar 14, s.ar 15, s.dr 12, s.dr 13, s.dr 14, s.dr 15]

/-- The 16 words of the lower context (R52; order PRESUMED, log 46). -/
def lowerWords (s : State) : List Word :=
  [s.pcxi, s.ar 11, s.ar 2, s.ar 3, s.dr 0, s.dr 1, s.dr 2, s.dr 3,
   s.ar 4, s.ar 5, s.ar 6, s.ar 7, s.dr 4, s.dr 5, s.dr 6, s.dr 7]

/-- The 16 words of a context. -/
def ctxWords (upper : Bool) (s : State) : List Word := if upper then upperWords s else lowerWords s

/-- Words as bytes, little endian, the first word lowest (20_memory R132). -/
def wordsBytes (ws : List Word) : List Byte := ws.flatMap wordBytes

/-- Word `k` of a block of bytes. -/
def wordAt (bs : List Byte) (k : Nat) : Word := wordOf (bs.drop (4 * k))

/-- The upper registers but PCXI and PSW from words 2 to 15 (R52, R457). -/
def loadUpperRegs (bs : List Byte) (s : State) : State :=
  { s with
    a := (((((s.a.set 10 (wordAt bs 2)).set 11 (wordAt bs 3)).set 12 (wordAt bs 8)).set 13 (wordAt bs 9)).set 14
      (wordAt bs 10)).set 15 (wordAt bs 11),
    d := (((((((s.d.set 8 (wordAt bs 4)).set 9 (wordAt bs 5)).set 10 (wordAt bs 6)).set 11 (wordAt bs 7)).set 12
      (wordAt bs 12)).set 13 (wordAt bs 13)).set 14 (wordAt bs 14)).set 15 (wordAt bs 15) }

/-- The lower registers but PCXI and A[11] from words 2 to 15 (R52, R456). -/
def loadLowerRegs (bs : List Byte) (s : State) : State :=
  { s with
    a := (((((s.a.set 2 (wordAt bs 2)).set 3 (wordAt bs 3)).set 4 (wordAt bs 8)).set 5 (wordAt bs 9)).set 6
      (wordAt bs 10)).set 7 (wordAt bs 11),
    d := (((((((s.d.set 0 (wordAt bs 4)).set 1 (wordAt bs 5)).set 2 (wordAt bs 6)).set 3 (wordAt bs 7)).set 4
      (wordAt bs 12)).set 5 (wordAt bs 13)).set 6 (wordAt bs 14)).set 7 (wordAt bs 15) }

/-- U5: after an upper context save the upper registers are kept, or hold free values (10_state R25, log 16). -/
def dropUpper (s : State) : State :=
  if s.platform.upperRegsKept then s
  else { s with
    d := Vector.ofFn fun i : Fin 16 => if 8 ≤ i.val then Config.freeWord s.freeCount i.val else s.d[i],
    a := Vector.ofFn fun i : Fin 16 => if 12 ≤ i.val then Config.freeWord s.freeCount (16 + i.val) else s.a[i],
    freeCount := s.freeCount + 1 }

/-- A context save at FCX cannot be completed: the free list is empty, or any error is met (42 R439; which errors, log
26). -/
def saveFails (s : State) : Bool :=
  let ea := csaEa (ctxPtr s.fcx)
  ctxPtr s.fcx = 0 || csaForbidden s ea || (addrs ea 64).any (inCsfrWindow s) ||
  (isUser0 s && (addrs ea 64).any fun pa => hasP (attrOf s pa)) ||
  (addrs ea 64).any (fun pa => !hasD (attrOf s pa)) || (addrs ea 64).any (busError s)

/-- The effect of a save that can be completed (42 R433 steps 2 to 8), PCXI taking ICR.CCPN and ICR.IE. -/
def saved (upper : Bool) (s : State) : State :=
  let ea := csaEa (ctxPtr s.fcx)
  let rd := physRead s (addrs ea 4)
  let s2 := physWrite rd.2 (addrs ea 64) (wordsBytes (ctxWords upper s))
  { s2 with
    pcxi := mkPcxi (icrCcpn s.icr) (icrIe s.icr) upper (ctxPtr s.fcx),
    fcx := (ctxPtr (wordOf rd.1)).setWidth 32,
    fcdPending := s.fcdPending || ctxPtr s.fcx = ctxPtr s.lcx }

/-- `save` (42 R433), with the values of the upper registers after it (R436); `none` is FCU. -/
def save (upper : Bool) (s : State) : Option State :=
  if saveFails s then none else some (if upper then dropUpper (saved true s) else saved false s)

/-- `restore` (42 R434) once the checks of its instruction are passed. -/
def restore (upper : Bool) (s : State) : Except Stop State := do
  let ea := csaEa (ctxPtr s.pcxi)
  raiseIf (csaForbidden s ea) .mem
  checkCsa s ea true
  let rd := physRead s (addrs ea 64)
  let bs := rd.1
  let s2 := physWrite rd.2 (addrs ea 4) (wordBytes s.fcx)
  let s3 := { s2 with fcx := (ctxPtr s.pcxi).setWidth 32, pcxi := wordAt bs 0 &&& pcxiMask }
  .ok (if upper then { loadUpperRegs bs s3 with psw := wordAt bs 1 &&& pswMask }
       else (loadLowerRegs bs s3).setA 11 (wordAt bs 1))

/-! ### Taking an exception (60 R655, R670, R672) -/

/-- PSW at the first instruction of a handler: PRS = 0, IO = 10B, IS = 1, GW = 0, CDE = 1, CDC = 0; the rest is kept
(R655, R656, R670). -/
def entryPsw (psw : Word) : Word := setField psw 0 (0#2 ++ 2#2 ++ 1#1 ++ 0#1 ++ 1#1 ++ 0#7)

/-- A[10] at entry: ISP where PSW.IS was 0 (10_state R50). -/
def entryStack (s : State) (a : Vector Word 16) : Vector Word 16 := if pswIs s.psw then a else a.set 10 s.isp

/-- The trap vector entry of a class (R671). -/
def trapVector (s : State) (tcn : BitVec 3) : Word := evenAddr (s.btv ||| (tcn.setWidth 32 <<< 5))

/-- The interrupt vector entry of a priority (R658). -/
def interruptVector (s : State) (p : BitVec 8) : Word := evenAddr (s.biv ||| (p.setWidth 32 <<< 5))

/-- U34: what R672 does not guarantee after an FCU entry: kept (D36), or free (log 17). -/
def dropAfterFcu (s : State) : State :=
  if s.platform.fcuKeeps then s
  else
    let f := Config.freeWord s.freeCount
    let csa := addrs (csaEa (ctxPtr s.fcx)) 64
    let s1 := writeMemory s csa ((List.range 64).map fun k => (f (8 + k)).extractLsb' 0 8)
    { s1 with
      a := s1.a.set 11 (f 0), pcxi := f 1 &&& pcxiMask, fcx := (ctxPtr (f 2)).setWidth 32,
      psw := setField s.psw 0 ((pswPrs s.psw) ++ (pswIo s.psw) ++ (f 3).extractLsb' 0 10),
      freeCount := s.freeCount + 1 }

/-- The reduced entry of FCU (R672). -/
def takeFcu (s : State) : State :=
  let s1 := dropAfterFcu s
  { s1 with
    d := s1.d.set 15 4, a := entryStack s s1.a,
    psw := setField s1.psw 10 (0#2 ++ 2#2),
    icr := setBit s1.icr 8 false, pc := trapVector s 3, completed := false }

/-- `take_trap(tcn, tin, ra)` (R670): the one operation that takes a trap. A save that cannot be completed turns it into
FCU (R672). -/
def enterTrap (tcn : BitVec 3) (tin : BitVec 8) (ra : Word) (s : State) : State :=
  match save true s with
  | none => takeFcu s
  | some s1 =>
    { s1 with
      a := entryStack s (s1.a.set 11 ra), d := s1.d.set 15 (tin.setWidth 32),
      psw := entryPsw s1.psw, icr := setBit s1.icr 8 false, pc := trapVector s tcn, completed := false }

/-- MMU_TFA after a VAF or VAP at a virtual address (11 R86, 21 R244): shifted by 10 + 2 * min(SZA, SZB) (log 31). -/
def faultPage (s : State) (va : Word) : Word :=
  va >>> (10 + 2 * min (mmuSza s.mmuCon).toNat (mmuSzb s.mmuCon).toNat)

/-- What a trap records besides A[11] and D[15] (60 R676). -/
def recordTrap (t : Trap) (s : State) : State :=
  match t with
  | .vaf va | .vap va => { s with mmuTfa := faultPage s va }
  | _ => s

/-- A synchronous trap of the instruction at `s.pc` is taken (R668, R670, R676). -/
def takeTrap (t : Trap) (s : State) : State :=
  enterTrap t.tcn t.tin (t.returnAddress s.pc) (recordTrap t s)

/-! ### Returning from an exception and from a call (42 R443, R444) -/

/-- RET (42 R443), all but its place in the step. -/
def returnFromCall (s : State) : Except Stop State := do
  raiseIf (ctxPtr s.pcxi = 0) .csu
  raiseIf (cdcEnabled s.psw && cdcIsZero (pswCdc s.psw)) .cdu
  raiseIf (!pcxiUl s.pcxi) .ctyp
  let t ← restore true s
  .ok { t with pc := evenAddr (s.ar 11) }

/-- RFE (42 R444): the return from an exception; ICR.IE and ICR.CCPN come from PCXI as it is before the restore (D28). -/
def returnFromException (s : State) : Except Stop State := do
  raiseIf (ctxPtr s.pcxi = 0) .csu
  raiseIf (cdcEnabled s.psw && !cdcIsZero (pswCdc s.psw)) .nest
  raiseIf (!pcxiUl s.pcxi) .ctyp
  let t ← restore true s
  .ok { t with pc := evenAddr (s.ar 11),
               icr := setField (setBit s.icr 8 (pcxiPie s.pcxi)) 0 (pcxiPcpn s.pcxi) }

/-! ### How a meaning ends -/

/-- The outcome of an instruction's own effect from the state before it: the effect, or the trap, entry or stop taken
instead. -/
def finish (s : State) (r : Res) : Host.Outcome State Fault Refusal :=
  match r with
  | .ok t => .next { t with completed := true }
  | .error (.trap t) => .next (takeTrap t s)
  | .error .fcu => .next (takeFcu s)
  | .error (.debugged t) => .next { t with completed := false }
  | .error (.fault f) => .fault f
  | .error (.refuse r) => .refused r

/-- PRIV where the mode is not Supervisor (60 R680). -/
def supervisorOnly (s : State) : Except Stop Unit := raiseIf (!isSupervisor s) .priv

end Sys2Proof.Machine
end

