-- ==== Sys2Proof/Machine/Csfr.lean ====
section
/-!
DEFINITION. Sys2Proof/Machine/Csfr.lean: the core register map (10_state R33) and what reading and writing each register
does (10_state R31 to R59, 11_state_system R70 to R102, 43 R490, R491).
-/
namespace Sys2Proof.Machine

/-- The core special function registers of Table 6 (10_state R33). -/
inductive Csfr where
  | pcxi | psw | pc | syscon | cpuId | biv | btv | isp | icr | fcx | lcx
  | dprL (x n : Fin 4) | dprU (x n : Fin 4) | cprL (x n : Fin 4) | cprU (x n : Fin 4)
  | dpm (x : Fin 4) | cpm (x : Fin 4)
  | mmuCon | mmuAsi | mmuTva | mmuTpa | mmuTpx | mmuTfa
  | dbgsr | exevt | crevt | swevt | trEvt (n : Fin 8) | dms | dcx
  deriving DecidableEq, Repr, Inhabited

/-- A two-bit field as a number below 4. -/
def fin4 (b : BitVec 2) : Fin 4 := b.toFin

/-- The protection registers' offsets (R33): bounds at C000H (data) and D000H (code) + 400H x + 8 n, the modes at E000H and
E200H + 80H x. A set or range the implementation lacks has none (R70, U8). -/
def protOf (p : Platform) (off : BitVec 16) : Option Csfr :=
  let x := fin4 (off.extractLsb' 10 2)
  let n := fin4 (off.extractLsb' 3 2)
  let y := fin4 (off.extractLsb' 7 2)
  if off.extractLsb' 12 4 = 0xC && off.extractLsb' 5 5 = 0 && off.extractLsb' 0 2 = 0 then
    (if x.val < p.nProtSets && n.val < p.nDataRanges then
      some (if off.getLsbD 2 then .dprU x n else .dprL x n) else none)
  else if off.extractLsb' 12 4 = 0xD && off.extractLsb' 5 5 = 0 && off.extractLsb' 0 2 = 0 then
    (if x.val < p.nProtSets && n.val < p.nCodeRanges then
      some (if off.getLsbD 2 then .cprU x n else .cprL x n) else none)
  else if off.extractLsb' 9 7 = 0b1110000#7 && off.extractLsb' 0 7 = 0 then
    (if y.val < p.nProtSets then some (.dpm y) else none)
  else if off.extractLsb' 9 7 = 0b1110001#7 && off.extractLsb' 0 7 = 0 then
    (if y.val < p.nProtSets then some (.cpm y) else none)
  else none

/-- TRnEVT, at FD20H + 4n (11 R90, R98), where the implementation has it. -/
def trEvtOf (p : Platform) (n : Fin 8) : Option Csfr := if n.val < p.nTriggers then some (.trEvt n) else none

/-- The register of an offset (10_state R33); `none` for an offset that MTCR and MFCR do not reach: unassigned, a GPR
(R27), or a register the implementation lacks (R37, log 22). -/
def csfrOf (p : Platform) (off : BitVec 16) : Option Csfr :=
  if off = 0xFE00 then some .pcxi else if off = 0xFE04 then some .psw
  else if off = 0xFE08 then some .pc else if off = 0xFE14 then some .syscon
  else if off = 0xFE18 then some .cpuId else if off = 0xFE20 then some .biv
  else if off = 0xFE24 then some .btv else if off = 0xFE28 then some .isp
  else if off = 0xFE2C then some .icr else if off = 0xFE38 then some .fcx
  else if off = 0xFE3C then some .lcx else if off = 0x8000 then some .mmuCon
  else if off = 0x8004 then some .mmuAsi else if off = 0x800C then some .mmuTva
  else if off = 0x8010 then some .mmuTpa else if off = 0x8014 then some .mmuTpx
  else if off = 0x8018 then some .mmuTfa else if off = 0xFD00 then some .dbgsr
  else if off = 0xFD08 then some .exevt else if off = 0xFD0C then some .crevt
  else if off = 0xFD10 then some .swevt
  else if off.extractLsb' 5 11 = 0x7E9 && off.extractLsb' 0 2 = 0 then trEvtOf p (off.extractLsb' 2 3).toFin
  else if off = 0xFD40 then some .dms else if off = 0xFD44 then some .dcx
  else protOf p off

/-- The dedicated debug registers, which raise no CREVT event (61 R733). -/
def Csfr.isDebug : Csfr → Bool
  | .dbgsr | .exevt | .crevt | .swevt | .trEvt _ | .dms | .dcx => true
  | _ => false

/-- The registers of the MMU but MMU_CON (11 R80). -/
def Csfr.isMmu : Csfr → Bool
  | .mmuAsi | .mmuTva | .mmuTpa | .mmuTpx | .mmuTfa => true
  | _ => false

/-- A register whose read value is undefined because no MMU is present: a free value (U10, log 41). -/
def csfrFree (s : State) (r : Csfr) : Bool := mmuNone s.mmuCon && (r.isMmu || r = .mmuCon)

/-- The value of a register (43 R490). -/
def csfrRead (s : State) (r : Csfr) : Word :=
  if csfrFree s r then
    (let f := Config.freeWord s.freeCount 0
     if r = .mmuCon then setBit f 15 true else f)
  else match r with
  | .pcxi => s.pcxi | .psw => s.psw | .pc => s.pc | .syscon => s.syscon
  | .cpuId => s.platform.cpuIdMod ++ 0xC0#8 ++ s.platform.cpuIdRev
  | .biv => s.biv | .btv => s.btv | .isp => s.isp | .icr => s.icr | .fcx => s.fcx | .lcx => s.lcx
  | .dprL x n => s.prot[x].dprL[n] | .dprU x n => s.prot[x].dprU[n]
  | .cprL x n => s.prot[x].cprL[n] | .cprU x n => s.prot[x].cprU[n]
  | .dpm x => s.prot[x].dpm | .cpm x => s.prot[x].cpm
  | .mmuCon => s.mmuCon | .mmuAsi => s.mmuAsi | .mmuTva => s.mmuTva | .mmuTpa => s.mmuTpa
  | .mmuTpx => s.mmuTpx | .mmuTfa => s.mmuTfa
  | .dbgsr => s.dbgsr | .exevt => s.exevt | .crevt => s.crevt | .swevt => s.swevt
  | .trEvt n => s.trEvt[n] | .dms => s.dms | .dcx => s.dcx

/-- What MFCR delivers for an offset: 0 where it names no register (D25). -/
def mfcrValue (s : State) (off : BitVec 16) : Word :=
  match csfrOf s.platform off with
  | some r => csfrRead s r
  | none => 0

/-- A write changes only the bits of `mask` (00_scope R12, 10_state R35: reserved, read-only and hardware bits stay). -/
def maskedWrite (old mask v : Word) : Word := (old &&& ~~~mask) ||| (v &&& mask)

/-- A write of DBGSR (11 R91, R92): PEVT and SUSP take the value; HALT[0] is written only with HALT[1] = 1, and set only
with DE = 1. -/
def writeDbgsr (old v : Word) : Word :=
  let w := maskedWrite old 0x00000090 v
  if v.getLsbD 2 then (if v.getLsbD 1 then (if dbgDe old then setBit w 1 true else w) else setBit w 1 false) else w

/-- One protection register set changed. -/
def setProt (s : State) (x : Fin 4) (p : ProtSet) : State := { s with prot := s.prot.set x p }

/-- A write of a register (43 R491): the writable fields take the value; BIV, BTV and ISP only in the initialisation
state (10_state R38, D24). DESIGN CHOICE (log 22): the bytes of DPMx and CPMx that belong to ranges the implementation
lacks are storage like the others. -/
def csfrWrite (s : State) (r : Csfr) (v : Word) : State :=
  match r with
  | .pcxi => { s with pcxi := v &&& pcxiMask }
  | .psw => { s with psw := v &&& pswMask }
  | .pc => s
  | .syscon => { s with syscon := v &&& 0x00000003 }
  | .cpuId => s
  | .biv => if s.endinit then s else { s with biv := evenAddr v }
  | .btv => if s.endinit then s else { s with btv := evenAddr v }
  | .isp => if s.endinit then s else { s with isp := v }
  | .icr => { s with icr := maskedWrite s.icr 0x070001FF v }
  | .fcx => { s with fcx := v &&& 0x000FFFFF }
  | .lcx => { s with lcx := v &&& 0x000FFFFF }
  | .dprL x n => setProt s x { s.prot[x] with dprL := s.prot[x].dprL.set n v }
  | .dprU x n => setProt s x { s.prot[x] with dprU := s.prot[x].dprU.set n v }
  | .cprL x n => setProt s x { s.prot[x] with cprL := s.prot[x].cprL.set n (evenAddr v) }
  | .cprU x n => setProt s x { s.prot[x] with cprU := s.prot[x].cprU.set n (evenAddr v) }
  | .dpm x => setProt s x { s.prot[x] with dpm := v }
  | .cpm x => setProt s x { s.prot[x] with cpm := v &&& 0xA9A9A9A9 }
  | .mmuCon => if mmuNone s.mmuCon then s else { s with mmuCon := maskedWrite s.mmuCon 0x0000001F v }
  | .mmuAsi => if mmuNone s.mmuCon then s else { s with mmuAsi := v &&& 0x0000001F }
  | .mmuTva | .mmuTpa | .mmuTpx | .mmuTfa => s
  | .dbgsr => { s with dbgsr := writeDbgsr s.dbgsr v }
  | .exevt => { s with exevt := v &&& 0x0000002F }
  | .crevt => { s with crevt := v &&& 0x0000002F }
  | .swevt => { s with swevt := v &&& 0x0000002F }
  | .trEvt n => { s with trEvt := s.trEvt.set n (v &&& 0x001F8F2F) }
  | .dms => { s with dms := evenAddr v }
  | .dcx => { s with dcx := v &&& 0xFFFFFFF0 }

/-- What MTCR does to the register of an offset: nothing where it names none, or the PC (D17, D25). -/
def mtcrEffect (s : State) (off : BitVec 16) (v : Word) : State :=
  match csfrOf s.platform off with
  | some r => csfrWrite s r v
  | none => s

end Sys2Proof.Machine
end

