-- ==== Sys2Proof/Machine/Debug.lean ====
section
/-!
DEFINITION. Sys2Proof/Machine/Debug.lean: the Core Debug Controller: debug actions (61 R740 to R750), the event of an
instruction itself (61 R733, R734) and trigger events (61 R735 to R738; 11 R99).
-/
namespace Sys2Proof.Machine

/-- A debug event source's register and its EVTSRC code (61 R731). -/
structure DebugEvent where
  reg : Word
  code : BitVec 5
  deriving DecidableEq, Repr, Inhabited

/-- The action of an event register is an implemented one (11 R96; 61 R738, R742). -/
def evtEnabled (s : State) (reg : Word) : Bool :=
  evtEvta reg ≠ 0 && ((evtEvta reg).toNat < 4 || (evtEvta reg).toNat - 4 < s.platform.nSwBreakpoints)

/-- `update_dbgsr` (61 R740). -/
def updateDbgsr (s : State) (e : DebugEvent) : Word :=
  let w := setBit (setBit (setField s.dbgsr 8 e.code) 6 (dbgSusp s.dbgsr)) 4 (evtSusp e.reg)
  if (evtEvta e.reg).getLsbD 2 then setBit w 7 true else w

/-- The 16 bytes at DCX are not memory (61 R748, log 40). -/
def debugAreaBad (s : State) : Bool := (addrs s.dcx 16).any fun pa => !plainMemory s pa

/-- `breakpoint_trap` (61 R748). DESIGN CHOICE (log 40): an area in a CSFR window outside peripheral space is memory. -/
def breakpointTrap (s : State) : State :=
  let s1 := physWrite s (addrs s.dcx 16) (wordsBytes [s.pcxi, s.psw, s.ar 10, s.ar 11])
  { s1 with
    a := s1.a.set 11 s.pc,
    psw := setField s.psw 8 (0#2 ++ 2#2 ++ 1#1 ++ 0#1),
    icr := setBit s.icr 8 false, pc := evenAddr s.dms }

/-- `debug_event` (61 R742), DE = 1 and the action enabled. -/
def debugEvent (e : DebugEvent) (s : State) : Except Stop State :=
  let s1 := { s with dbgsr := updateDbgsr s e, breakOuts := s.breakOuts + 1 }
  let evta := evtEvta e.reg
  if evta = 1 then .ok s1
  else if evta = 2 then .ok { s1 with dbgsr := setBit s1.dbgsr 1 true }
  else if evta = 3 then (if debugAreaBad s then .error (.fault .debugAreaUndefined) else .ok (breakpointTrap s1))
  else
    let k := evta.toNat - 4
    .ok (match getNode s1 (4 + k) with
      | some n => setNode s1 (4 + k) { n with srr := true }
      | none => s1)

/-- The action stops or redirects execution: halt or breakpoint trap (61 R737, R744, R748). -/
def evtDiverts (e : DebugEvent) : Bool := evtEvta e.reg = 2 || evtEvta e.reg = 3

/-- The break-before-make part of an instruction's own event (61 R737, R742): the action is taken before the instruction;
where it diverts, the instruction does not execute. -/
def eventBefore (e : DebugEvent) (s : State) : Except Stop State :=
  if dbgDe s.dbgsr && evtEnabled s e.reg && evtBbm e.reg then do
    let t ← debugEvent e s
    stopIf (evtDiverts e) (.debugged t)
    .ok t
  else .ok s

/-- The break-after-make part of an instruction's own event (61 R737): the action is taken after the instruction; `s` is
the state before it. -/
def eventAfter (e : DebugEvent) (s : State) (t : State) : Except Stop State :=
  if dbgDe s.dbgsr && evtEnabled s e.reg && !evtBbm e.reg then debugEvent e t else .ok t

/-- The SWEVT event of DEBUG (61 R734). -/
def swEvent (s : State) : DebugEvent := { reg := s.swevt, code := 2 }

/-- The CREVT event of an MFCR or MTCR (61 R733); a dedicated debug register raises none: EVTA 000B. -/
def crEvent (s : State) (off : BitVec 16) : DebugEvent :=
  if (csfrOf s.platform off).any Csfr.isDebug then { reg := 0, code := 1 } else { reg := s.crevt, code := 1 }

/-! ### Triggers -/

/-- One data access of an instruction, for the triggers (61 R735). -/
structure TriggerAccess where
  ea : Word
  read : Bool
  write : Bool
  deriving DecidableEq, Repr, Inhabited

/-- D_LR(n) (61 R735). -/
def trigDlr (s : State) (n : Fin 4) (acc : List TriggerAccess) : Bool :=
  let p := protSet s
  acc.any fun x =>
    (x.read && ((modeBit p.dpm n 4 && inData p n x.ea) || (modeBit p.dpm n 2 && x.ea = p.dprL[n]))) ||
    (x.write && ((modeBit p.dpm n 5 && inData p n x.ea) || (modeBit p.dpm n 3 && x.ea = p.dprL[n])))

/-- D_U(n) (61 R735). -/
def trigDu (s : State) (n : Fin 4) (acc : List TriggerAccess) : Bool :=
  let p := protSet s
  acc.any fun x =>
    (x.read && modeBit p.dpm n 0 && x.ea = p.dprU[n]) || (x.write && modeBit p.dpm n 1 && x.ea = p.dprU[n])

/-- C_LR(n) (61 R735). -/
def trigClr (s : State) (n : Fin 4) (pc : Word) : Bool :=
  let p := protSet s
  (modeBit p.cpm n 5 && inCode p n pc) || (modeBit p.cpm n 3 && pc = p.cprL[n])

/-- C_U(n) (61 R735). -/
def trigCu (s : State) (n : Fin 4) (pc : Word) : Bool :=
  let p := protSet s
  modeBit p.cpm n 0 && pc = p.cprU[n]

/-- Table 17 (11 R99), `sel` = TRnEVT[11:8] = DU_U, DU_LR, DLR_U, DLR_LR. -/
def combine (sel : BitVec 4) (du dlr cu clr : Bool) : Bool :=
  (sel.getLsbD 0 && dlr && clr) || (sel.getLsbD 1 && dlr && cu) ||
  (sel.getLsbD 2 && du && clr) || (sel.getLsbD 3 && du && cu) ||
  (!sel.getLsbD 2 && !sel.getLsbD 3 && du) || (!sel.getLsbD 0 && !sel.getLsbD 1 && dlr) ||
  (!sel.getLsbD 1 && !sel.getLsbD 3 && cu) || (!sel.getLsbD 0 && !sel.getLsbD 2 && clr)

/-- What the ASI comparison of TRnEVT reads from MMU_ASI: with no MMU a free value (61 R735, U10, log 41). -/
def triggerAsi (s : State) (n : Fin 8) : BitVec 5 :=
  if mmuNone s.mmuCon then (Config.freeWord s.freeCount (600 + n.val)).extractLsb' 0 5 else asiOf s

/-- `asi_ok(n)` (61 R735). -/
def asiOk (s : State) (n : Fin 8) : Bool := !s.trEvt[n].getLsbD 15 || s.trEvt[n].extractLsb' 16 5 = triggerAsi s n

/-- Ranges n of the selected sets can trigger (61 R735): TRnEVT is there. DESIGN CHOICE (log 37): where PSW.PRS names a
set the implementation lacks, none can, whatever SYSCON.PROTEN is. -/
def trigExists (s : State) (n : Fin 8) : Bool := n.val < s.platform.nTriggers && !protSetMissing s

/-- Data range n is there, as a trigger; a set has at most four (11 R70). -/
def trigDataThere (s : State) (n : Fin 8) : Bool := n.val < min 4 s.platform.nDataRanges
/-- Code range n is there, as a trigger. -/
def trigCodeThere (s : State) (n : Fin 8) : Bool := n.val < min 4 s.platform.nCodeRanges

/-- The range that TRnEVT watches, n below 4. -/
def trigRange (n : Fin 8) : Fin 4 := ⟨n.val % 4, Nat.mod_lt _ (by decide)⟩

/-- `cond(n)` (61 R735). DESIGN CHOICE (log 56): where a set has data range n and no code range n, or the reverse, the signals of
the missing range are 0 and those of the other count alone. -/
def trigCond (s : State) (n : Fin 8) (pc : Word) (acc : List TriggerAccess) : Bool :=
  let r := trigRange n
  combine (s.trEvt[n].extractLsb' 8 4)
    (trigDataThere s n && trigDu s r acc) (trigDataThere s n && trigDlr s r acc)
    (trigCodeThere s n && trigCu s r pc) (trigCodeThere s n && trigClr s r pc)

/-- TRnEVT can raise an event at all: it is there, the CDC is on, its ASI matches, its action is enabled (61 R735, R738). -/
def trigArmed (s : State) (n : Fin 8) : Bool :=
  trigExists s n && dbgDe s.dbgsr && asiOk s n && evtEnabled s s.trEvt[n]

/-- `trigger_bbm(n)` (61 R736): only code triggers, TRnEVT.BBM = 1. -/
def trigBefore (s : State) (n : Fin 8) (pc : Word) : Bool :=
  trigArmed s n && evtBbm s.trEvt[n] && trigCond s n pc []

/-- `trigger_bam(n)` (61 R736). -/
def trigAfter (s : State) (n : Fin 8) (pc : Word) (acc : List TriggerAccess) : Bool :=
  trigArmed s n && trigCond s n pc acc && !trigBefore s n pc

/-- The event of TRnEVT (61 R731). -/
def trigEvent (s : State) (n : Fin 8) : DebugEvent := { reg := s.trEvt[n], code := 16 + BitVec.ofNat 5 n.val }

/-- The trigger event before the instruction at `s.pc`, the lowest number first (61 R738). -/
def firstBefore (s : State) : Option DebugEvent :=
  ((List.finRange 8).find? fun n => trigBefore s n s.pc).map (trigEvent s)

/-- The trigger event after the instruction at `s.pc` that made the accesses `acc` (61 R738). -/
def firstAfter (s : State) (acc : List TriggerAccess) : Option DebugEvent :=
  ((List.finRange 8).find? fun n => trigAfter s n s.pc acc).map (trigEvent s)

/-- The triggers' ASI comparison at this instruction reads an MMU_ASI that is not there. -/
def asiFree (s : State) : Bool :=
  mmuNone s.mmuCon && dbgDe s.dbgsr &&
    (List.finRange 8).any fun n => n.val < s.platform.nTriggers && s.trEvt[n].getLsbD 15

/-- The state an instruction starts from: the triggers' ASI comparison has a free value of its own (U10). -/
def spendAsi (s : State) : State := if asiFree s then useFree s else s

end Sys2Proof.Machine
end

