-- ==== Sys2Proof/Machine/LoadStore.lean ====
section
/-!
DEFINITION. Sys2Proof/Machine/LoadStore.lean: the loads, stores and read-modify-write instructions (40 R354 to R367).
-/
namespace Sys2Proof.Machine

/-! ### Shared shapes -/

/-- The free choice of U3 and U4: one of two values the source allows (40 R350, log 18). -/
def freeChoice (s : State) : Bool := (Config.freeWord s.freeCount 100).getLsbD 0

/-- A load's address-register destination, after the mode's update; where the two are one register it holds the loaded
word or the updated address (R350, U3). -/
def putAddr (m : Mode) (r : Fin 16) (v : Word) (t : State) : State :=
  if modeTarget m = some r then (if freeChoice t then useFree t else useFree (t.setA r v)) else t.setA r v

/-- The address register a store stores; where its mode updates it, the original or the updated value (R350, U4). -/
def storedAddr (s : State) (m : Mode) (r : Fin 16) : Word :=
  match modeUpdate s m with
  | some (u, v) => if u = r then (if freeChoice s then v else s.ar r) else s.ar r
  | none => s.ar r

/-- A free value is used up where a store's data register is the one its mode updates (U4). -/
def useStored (m : Mode) (r : Fin 16) (t : State) : State := if modeTarget m = some r then useFree t else t

/-- The common shape of a load (R354): OPD, GRWP, the access checks, the read, the mode's update, the destination. -/
def loadShape (len : Len) (m : Mode) (kind : AccessKind) (odd global : Bool) (put : List Byte → State → State)
    (s : State) : Res := do
  opd (odd || modeOddPair m)
  grwp s (global || modeWritesGlobal m)
  let pas ← checkData s m kind
  let rd := physRead s pas
  .ok (advance len (put rd.1 (applyUpdate rd.2 (modeUpdate s m))))

/-- The common shape of a store (R354). -/
def storeShape (len : Len) (m : Mode) (kind : AccessKind) (odd : Bool) (bs : List Byte) (s : State) : Res := do
  opd (odd || modeOddPair m)
  grwp s (modeWritesGlobal m)
  let pas ← checkData s m kind
  .ok (advance len (applyUpdate (physWrite s pas bs) (modeUpdate s m)))

/-- The common shape of LDMST, SWAP.W and ST.T: read, then write, one indivisible operation (20_memory R180). -/
def rmwShape (len : Len) (m : Mode) (kind : AccessKind) (odd : Bool) (new : List Byte → List Byte)
    (put : List Byte → State → State) (s : State) : Res := do
  opd (odd || modeOddPair m)
  grwp s (modeWritesGlobal m)
  let pas ← checkData s m kind
  let rd := physRead s pas
  .ok (advance len (put rd.1 (applyUpdate (physWrite rd.2 pas (new rd.1)) (modeUpdate s m))))

/-- `(old and not mask) or (data and mask)` (R365). -/
def maskMerge (old data mask : Word) : Word := (old &&& ~~~mask) ||| (data &&& mask)

/-! ### Loads -/

/-- LD.B (R355): sign extended. -/
def execLdB (len : Len) (a : DReg) (m : Mode) (s : State) : Host.Outcome State Fault Refusal :=
  finish s (loadShape len m (.load 1 1) false false (fun bs t => t.setD a ((byteOf bs).signExtend 32)) s)

/-- LD.BU (R355): zero extended. -/
def execLdBu (len : Len) (a : DReg) (m : Mode) (s : State) : Host.Outcome State Fault Refusal :=
  finish s (loadShape len m (.load 1 1) false false (fun bs t => t.setD a ((byteOf bs).setWidth 32)) s)

/-- LD.H (R362): sign extended. -/
def execLdH (len : Len) (a : DReg) (m : Mode) (s : State) : Host.Outcome State Fault Refusal :=
  finish s (loadShape len m (.load 2 2) false false (fun bs t => t.setD a ((halfOf bs).signExtend 32)) s)

/-- LD.HU (R362): zero extended. -/
def execLdHu (len : Len) (a : DReg) (m : Mode) (s : State) : Host.Outcome State Fault Refusal :=
  finish s (loadShape len m (.load 2 2) false false (fun bs t => t.setD a ((halfOf bs).setWidth 32)) s)

/-- LD.W (R362). -/
def execLdW (len : Len) (a : DReg) (m : Mode) (s : State) : Host.Outcome State Fault Refusal :=
  finish s (loadShape len m (.load 4 2) false false (fun bs t => t.setD a (wordOf bs)) s)

/-- LD.D (R358): D[a] from EA, D[a+1] from EA + 4. -/
def execLdD (len : Len) (a : DReg) (m : Mode) (s : State) : Host.Outcome State Fault Refusal :=
  finish s (loadShape len m .loadD (oddPair a) false
    (fun bs t => (t.setD a (wordAt bs 0)).setD (pairOdd a) (wordAt bs 1)) s)

/-- LD.A (R360). -/
def execLdA (len : Len) (a : AReg) (m : Mode) (s : State) : Host.Outcome State Fault Refusal :=
  finish s (loadShape len m (.load 4 4) false (isGlobal a) (fun bs t => putAddr m a (wordOf bs) t) s)

/-- LD.DA (R361, R135): A[a] from EA, A[a+1] from EA + 4. -/
def execLdDa (len : Len) (a : AReg) (m : Mode) (s : State) : Host.Outcome State Fault Refusal :=
  finish s (loadShape len m (.load 8 4) (oddPair a) (isGlobal a || isGlobal (pairOdd a))
    (fun bs t => putAddr m (pairOdd a) (wordAt bs 1) (putAddr m a (wordAt bs 0) t)) s)

/-! ### Stores -/

/-- ST.B (R356): D[a][7:0]. -/
def execStB (len : Len) (a : DReg) (m : Mode) (s : State) : Host.Outcome State Fault Refusal :=
  finish s (storeShape len m (.store 1 1) false [(s.dr a).extractLsb' 0 8] s)

/-- ST.H (R362): D[a][15:0]. -/
def execStH (len : Len) (a : DReg) (m : Mode) (s : State) : Host.Outcome State Fault Refusal :=
  finish s (storeShape len m (.store 2 2) false (halfBytes ((s.dr a).extractLsb' 0 16)) s)

/-- ST.W (R362). -/
def execStW (len : Len) (a : DReg) (m : Mode) (s : State) : Host.Outcome State Fault Refusal :=
  finish s (storeShape len m (.store 4 2) false (wordBytes (s.dr a)) s)

/-- ST.D (R359): D[a] at EA, D[a+1] at EA + 4. -/
def execStD (len : Len) (a : DReg) (m : Mode) (s : State) : Host.Outcome State Fault Refusal :=
  finish s (storeShape len m .storeD (oddPair a) (wordsBytes [s.dr a, s.dr (pairOdd a)]) s)

/-- ST.A (R361). -/
def execStA (len : Len) (a : AReg) (m : Mode) (s : State) : Host.Outcome State Fault Refusal :=
  finish s ((storeShape len m (.store 4 4) false (wordBytes (storedAddr s m a)) s).map (useStored m a))

/-- ST.DA (R361, R135): A[a] at EA, A[a+1] at EA + 4. -/
def execStDa (len : Len) (a : AReg) (m : Mode) (s : State) : Host.Outcome State Fault Refusal :=
  finish s ((storeShape len m (.store 8 4) (oddPair a)
    (wordsBytes [storedAddr s m a, storedAddr s m (pairOdd a)]) s).map
      fun t => useStored m a (useStored m (pairOdd a) t))

/-! ### Read-modify-write -/

/-- LDMST (R365): E[a] holds the data (even register) and the mask (odd register). -/
def execLdmst (len : Len) (a : DReg) (m : Mode) (s : State) : Host.Outcome State Fault Refusal :=
  finish s (rmwShape len m .rmw (oddPair a)
    (fun bs => wordBytes (maskMerge (wordOf bs) (s.dr a) (s.dr (pairOdd a)))) (fun _ t => t) s)

/-- SWAP.W (R366). -/
def execSwapW (len : Len) (a : DReg) (m : Mode) (s : State) : Host.Outcome State Fault Refusal :=
  finish s (rmwShape len m .rmw false (fun _ => wordBytes (s.dr a)) (fun bs t => t.setD a (wordOf bs)) s)

/-- A byte with bit `k` set to `b`. -/
def byteWithBit (x : Byte) (k : BitVec 3) (b : Bool) : Byte :=
  (x &&& ~~~(1#8 <<< k.toNat)) ||| ((BitVec.ofBool b).setWidth 8 <<< k.toNat)

/-- ST.T (R367): one bit of a byte at an absolute address. -/
def execStT (len : Len) (off : BitVec 18) (bpos : BitVec 3) (b : Bool) (s : State) : Host.Outcome State Fault Refusal :=
  finish s (rmwShape len (.abs off) .bit false (fun bs => [byteWithBit (byteOf bs) bpos b]) (fun _ t => t) s)

end Sys2Proof.Machine
end

