-- ==== Sys2Proof/Machine/AddressArith.lean ====
section
/-!
DEFINITION. Sys2Proof/Machine/AddressArith.lean: address arithmetic and bit extract (40 R370 to R373).
-/
namespace Sys2Proof.Machine

/-- LEA (R370): the effective address, no memory access, no segment rule. -/
def execLea (len : Len) (a : AReg) (m : LeaMode) (s : State) : Host.Outcome State Fault Refusal :=
  finish s (do
    grwp s (isGlobal a)
    .ok (advance len (s.setA a (modeEa s (leaMode m)))))

/-- ADDSC.A (R371): `A[b] + (D[a] << n)`. -/
def execAddscA (len : Len) (c b : AReg) (a : DReg) (n : BitVec 2) (s : State) : Host.Outcome State Fault Refusal :=
  finish s (do
    grwp s (isGlobal c)
    .ok (advance len (s.setA c (s.ar b + (s.dr a <<< n.toNat)))))

/-- ADDSC.AT (R372, D33): `(A[b] + (D[a] >>s 3)) and FFFF FFFCH`. -/
def execAddscAt (len : Len) (c b : AReg) (a : DReg) (s : State) : Host.Outcome State Fault Refusal :=
  finish s (do
    grwp s (isGlobal c)
    .ok (advance len (s.setA c ((s.ar b + (s.dr a).sshiftRight 3) &&& 0xFFFFFFFC))))

/-- The field EXTR.U extracts (R373). -/
def extractField (v : Word) (pos width : Nat) : Word :=
  (v >>> pos) &&& ((1#32 <<< width) - 1)

/-- EXTR.U operands the spec gives a result for: width in 1..32-pos (R373). -/
def fieldDefined (pos width : Nat) : Bool := 1 ≤ width && pos + width ≤ 32

/-- An odd pair operand of EXTR.U. -/
def fieldOddPair : BitField → Bool
  | .pair e => oddPair e
  | _ => false

/-- EXTR.U (R373). Outside the widths R373 gives the result is a free value (log 49). -/
def execExtrU (len : Len) (c a : DReg) (f : BitField) (s : State) : Host.Outcome State Fault Refusal :=
  finish s (do
    opd (fieldOddPair f)
    let (pos, width) := fieldOf s f
    .ok (advance len
      (if fieldDefined pos width then s.setD c (extractField (s.dr a) pos width)
       else useFree (s.setD c (Config.freeWord s.freeCount 0)))))

end Sys2Proof.Machine
end

