-- ==== Sys2Proof/Machine/Integer.lean ====
section
/-!
DEFINITION. Sys2Proof/Machine/Integer.lean: carry arithmetic, counts, compares, conditional move and the assertion
instructions (41 R402 to R412).
-/
namespace Sys2Proof.Machine

/-- ADDX (R402). -/
def execAddx (len : Len) (c a : DReg) (op : Op2) (s : State) : Host.Outcome State Fault Refusal :=
  finish s (.ok (advance len
    { s.setD c (addSum (s.dr a) (s.op2 op) false) with psw := addFlags s.psw (s.dr a) (s.op2 op) false }))

/-- ADDC (R403): PSW.C before the instruction is the carry in. -/
def execAddc (len : Len) (c a : DReg) (op : Op2) (s : State) : Host.Outcome State Fault Refusal :=
  finish s (.ok (advance len
    { s.setD c (addSum (s.dr a) (s.op2 op) (flagC s.psw)) with
      psw := addFlags s.psw (s.dr a) (s.op2 op) (flagC s.psw) }))

/-- A Boolean in a register (R412): 1 or 0. -/
def boolWord (b : Bool) : Word := (BitVec.ofBool b).setWidth 32

/-- EQ (R412). -/
def execEq (len : Len) (c a : DReg) (op : Op2) (s : State) : Host.Outcome State Fault Refusal :=
  finish s (.ok (advance len (s.setD c (boolWord (s.dr a = s.op2 op)))))

/-- NE (R412). -/
def execNe (len : Len) (c a : DReg) (op : Op2) (s : State) : Host.Outcome State Fault Refusal :=
  finish s (.ok (advance len (s.setD c (boolWord (s.dr a ≠ s.op2 op)))))

/-- LT (R412): signed. -/
def execLt (len : Len) (c a : DReg) (op : Op2) (s : State) : Host.Outcome State Fault Refusal :=
  finish s (.ok (advance len (s.setD c (boolWord ((s.dr a).slt (s.op2 op))))))

/-- GE (R412): signed. -/
def execGe (len : Len) (c a : DReg) (op : Op2) (s : State) : Host.Outcome State Fault Refusal :=
  finish s (.ok (advance len (s.setD c (boolWord ((s.op2 op).sle (s.dr a))))))

/-- The number of consecutive bits equal to `b` from bit `n` - 1 of `v` downward. -/
def leadingRun (v : Word) (b : Bool) : Nat → Nat
  | 0 => 0
  | n + 1 => if v.getLsbD n = b then leadingRun v b n + 1 else 0

/-- CLO (R410). -/
def execClo (len : Len) (c a : DReg) (s : State) : Host.Outcome State Fault Refusal :=
  finish s (.ok (advance len (s.setD c (BitVec.ofNat 32 (leadingRun (s.dr a) true 32)))))

/-- CLZ (R410). -/
def execClz (len : Len) (c a : DReg) (s : State) : Host.Outcome State Fault Refusal :=
  finish s (.ok (advance len (s.setD c (BitVec.ofNat 32 (leadingRun (s.dr a) false 32)))))

/-- CLS (R410): the bits below bit 31 equal to bit 31. -/
def execCls (len : Len) (c a : DReg) (s : State) : Host.Outcome State Fault Refusal :=
  finish s (.ok (advance len (s.setD c (BitVec.ofNat 32 (leadingRun (s.dr a) ((s.dr a).getLsbD 31) 31)))))

/-- CMOV (R411): where D[15] is not 0. -/
def execCmov (len : Len) (a : DReg) (op : MovSrc) (s : State) : Host.Outcome State Fault Refusal :=
  finish s (.ok (advance len (if s.dr 15 ≠ 0 then s.setD a (s.movSrc op) else s)))

/-- RSTV (R407). -/
def execRstv (len : Len) (s : State) : Host.Outcome State Fault Refusal :=
  finish s (.ok (advance len { s with psw := clearOverflow s.psw }))

/-- TRAPV (R405): OVF where PSW.V is set. -/
def execTrapv (len : Len) (s : State) : Host.Outcome State Fault Refusal :=
  finish s (do
    raiseIf (flagV s.psw) .ovf
    .ok (advance len s))

/-- TRAPSV (R406): SOVF where PSW.SV is set. -/
def execTrapsv (len : Len) (s : State) : Host.Outcome State Fault Refusal :=
  finish s (do
    raiseIf (flagSV s.psw) .sovf
    .ok (advance len s))

end Sys2Proof.Machine
end

