-- ==== Sys2Proof/Machine/Context.lean ====
section
/-!
DEFINITION. Sys2Proof/Machine/Context.lean: CALL, RET, RFE, JL and the context instructions (42 R443 to R460).
-/
namespace Sys2Proof.Machine

/-- A save, or the FCU entry where it cannot be completed (42 R439). -/
def saveOrFcu (upper : Bool) (s : State) : Except Stop State :=
  match save upper s with
  | some t => .ok t
  | none => .error .fcu

/-- CALL (R445): FCU before CDO (60 R720), the save of the state before the call, then the count, A[11] and the jump. DESIGN
CHOICE (log 54): an indirect target is read before A[11] is written, so through A[11] it is the old A[11]. -/
def execCall (len : Len) (t : Target) (s : State) : Host.Outcome State Fault Refusal :=
  finish s (do
    stopIf (ctxPtr s.fcx = 0) .fcu
    raiseIf (cdcEnabled s.psw && cdcAtMax (pswCdc s.psw)) .cdo
    let u ← saveOrFcu true s
    .ok { u with psw := callPsw s.psw, a := u.a.set 11 (s.pc + lenBytes len), pc := targetOf s t })

/-- JL (R460). DESIGN CHOICE (log 54): an indirect target is read before A[11] is written, so through A[11] it is the old
A[11]. -/
def execJl (len : Len) (t : Target) (s : State) : Host.Outcome State Fault Refusal :=
  finish s (.ok { s with a := s.a.set 11 (s.pc + lenBytes len), pc := targetOf s t })

/-- RET (R443). -/
def execRet (_len : Len) (s : State) : Host.Outcome State Fault Refusal :=
  finish s (returnFromCall s)

/-- RFE (R444). -/
def execRfe (_len : Len) (s : State) : Host.Outcome State Fault Refusal :=
  finish s (returnFromException s)

/-- BISR (R451): privileged (G7); the save takes the old ICR.IE and ICR.CCPN. -/
def execBisr (len : Len) (const8 : BitVec 8) (s : State) : Host.Outcome State Fault Refusal :=
  finish s (do
    supervisorOnly s
    let u ← saveOrFcu false s
    .ok (advance len { u with icr := setField (setBit s.icr 8 true) 0 const8 }))

/-- SVLCX (R452). -/
def execSvlcx (len : Len) (s : State) : Host.Outcome State Fault Refusal :=
  finish s (do
    let u ← saveOrFcu false s
    .ok (advance len u))

/-- RSLCX (R453). -/
def execRslcx (len : Len) (s : State) : Host.Outcome State Fault Refusal :=
  finish s (do
    raiseIf (ctxPtr s.pcxi = 0) .csu
    raiseIf (pcxiUl s.pcxi) .ctyp
    let u ← restore false s
    .ok (advance len u))

/-- The common shape of STLCX and STUCX (R454, R455). -/
def storeCtx (len : Len) (m : CtxMode) (upper : Bool) (s : State) : Res := do
  let pas ← checkCtx s (ctxMode m) false
  .ok (advance len (physWrite s pas (wordsBytes (ctxWords upper s))))

/-- STLCX (R454). -/
def execStlcx (len : Len) (m : CtxMode) (s : State) : Host.Outcome State Fault Refusal :=
  finish s (storeCtx len m false s)

/-- STUCX (R455). -/
def execStucx (len : Len) (m : CtxMode) (s : State) : Host.Outcome State Fault Refusal :=
  finish s (storeCtx len m true s)

/-- LDLCX (R456): words 2 to 15 (log 45). -/
def execLdlcx (len : Len) (m : CtxMode) (s : State) : Host.Outcome State Fault Refusal :=
  finish s (do
    let pas ← checkCtx s (ctxMode m) true
    let rd := physRead s pas
    .ok (advance len (loadLowerRegs rd.1 rd.2)))

/-- LDUCX (R457): words 2 to 15 (log 45). -/
def execLducx (len : Len) (m : CtxMode) (s : State) : Host.Outcome State Fault Refusal :=
  finish s (do
    let pas ← checkCtx s (ctxMode m) true
    let rd := physRead s pas
    .ok (advance len (loadUpperRegs rd.1 rd.2)))

end Sys2Proof.Machine
end

