-- ==== Sys2Proof/Machine/System.lean ====
section
/-!
DEFINITION. Sys2Proof/Machine/System.lean: the system instructions (43 R490 to R504).
-/
namespace Sys2Proof.Machine

/-- An instruction that can raise a debug event of its own (61 R733, R734): the break-before-make part, the instruction,
the break-after-make part. -/
def withEvent (e : DebugEvent) (body : State → Res) (s : State) : Host.Outcome State Fault Refusal :=
  match eventBefore e s with
  | .error stop => finish s (.error stop)
  | .ok s1 => finish s1 (do
      let t ← body s1
      eventAfter e s1 t)

/-- MFCR (R490): any mode (D23). -/
def execMfcr (len : Len) (c : DReg) (off : BitVec 16) (s : State) : Host.Outcome State Fault Refusal :=
  withEvent (crEvent s off) (fun s =>
    let t := s.setD c (mfcrValue s off)
    .ok (advance len (if (csfrOf s.platform off).any (csfrFree s) then useFree t else t))) s

/-- An MTCR that changes MMU_CON.V while it is fetched through a PTE that is not the identity, or that sets V from such
code (11 R81, U11). DESIGN CHOICE (log 39): of a 32-bit MTCR that straddles two pages the pc's page alone is asked about, not the
second half-word's (11 R81, 70 R804). -/
def mmuSwitchBad (s : State) (off : BitVec 16) (v : Word) : Bool :=
  off = 0x8000 && !mmuNone s.mmuCon && (mmuV s.mmuCon ^^ v.getLsbD 0) &&
  usesPte s s.pc && (physOf s s.pc ≠ some s.pc)

/-- MTCR (R491): Supervisor (D23). -/
def execMtcr (len : Len) (off : BitVec 16) (a : DReg) (s : State) : Host.Outcome State Fault Refusal :=
  withEvent (crEvent s off) (fun s => do
    supervisorOnly s
    stopIf (mmuSwitchBad s off (s.dr a)) (.fault .mmuSwitchUndefined)
    .ok (advance len (mtcrEffect s off (s.dr a)))) s

/-- ENABLE (R495): not in User-0. -/
def execEnable (len : Len) (s : State) : Host.Outcome State Fault Refusal :=
  finish s (do
    raiseIf (isUser0 s) .priv
    .ok (advance len { s with icr := setBit s.icr 8 true }))

/-- DISABLE (R496): not in User-0. -/
def execDisable (len : Len) (s : State) : Host.Outcome State Fault Refusal :=
  finish s (do
    raiseIf (isUser0 s) .priv
    .ok (advance len { s with icr := setBit s.icr 8 false }))

/-- ISYNC (R497): in this sequential model every earlier effect is in force already (log 57). -/
def execIsync (len : Len) (s : State) : Host.Outcome State Fault Refusal :=
  finish s (.ok (advance len s))

/-- DSYNC (R498): in this sequential model every earlier access has been performed (log 57). -/
def execDsync (len : Len) (s : State) : Host.Outcome State Fault Refusal :=
  finish s (.ok (advance len s))

/-- SYSCALL (R500): the SYS trap, TIN = const8, return address after the instruction. -/
def execSyscall (len : Len) (const8 : BitVec 8) (s : State) : Host.Outcome State Fault Refusal :=
  finish s (.error (.trap (.sys const8 len)))

/-- DEBUG (R502): the SWEVT event with the CDC on, else nothing. -/
def execDebug (len : Len) (s : State) : Host.Outcome State Fault Refusal :=
  withEvent (swEvent s) (fun s => .ok (advance len s)) s

/-- RFM (R503): privileged; no operation with the CDC off; else the reverse of the breakpoint trap. A bus error on the
debug context area is a DSE (60 R701). DESIGN CHOICE (log 40): the four reads are of the physical addresses at DCX as
they stand, in the CSFR window or on a device too, where R503 speaks of RAM only. -/
def execRfm (len : Len) (s : State) : Host.Outcome State Fault Refusal :=
  finish s (do
    supervisorOnly s
    if dbgDe s.dbgsr then
      let pas := addrs s.dcx 16
      raiseIf (pas.any fun pa => !hasD (attrOf s pa) || busError s pa) .dse
      let rd := physRead s pas
      .ok { rd.2 with
        psw := wordAt rd.1 1 &&& pswMask, pcxi := wordAt rd.1 0 &&& pcxiMask,
        a := (s.a.set 10 (wordAt rd.1 2)).set 11 (wordAt rd.1 3), pc := evenAddr (s.ar 11) }
    else .ok (advance len s))

/-- NOP (R504). -/
def execNop (len : Len) (s : State) : Host.Outcome State Fault Refusal :=
  finish s (.ok (advance len s))

end Sys2Proof.Machine
end

