-- ==== Sys2Proof/Machine/Mmu.lean ====
section
/-!
DEFINITION. Sys2Proof/Machine/Mmu.lean: the six MMU instructions (44 R530 to R539).
-/
namespace Sys2Proof.Machine

/-- `mmu_prologue` (R530): UOPC with no MMU, then PRIV. -/
def mmuPrologue (s : State) : Except Stop Unit := do
  raiseIf (mmuNone s.mmuCon) .uopc
  supervisorOnly s

/-- A TTE with every field free, `k` its number among the TTEs (U9, log 43). -/
def freeTte (s : State) (k : Nat) : Tte :=
  let x := Config.freeWord s.freeCount (2 * k)
  let y := Config.freeWord s.freeCount (2 * k + 1)
  { v := y.getLsbD 31, asi := x.extractLsb' 22 5, vpn := x.extractLsb' 0 22, ppn := y.extractLsb' 0 22,
    xe := y.getLsbD 30, we := y.getLsbD 29, re := y.getLsbD 28, g := y.getLsbD 27, c := y.getLsbD 26,
    psz := y.extractLsb' 24 2 }

/-- The TTE that TLBMAP enters (R531): D[a] the virtual address, D[a+1] attributes and PPN; reserved bits ignored. -/
def newTte (s : State) (lo hi : Word) : Tte :=
  let psz : BitVec 2 := hi.extractLsb' 24 2
  { v := true, asi := asiOf s, vpn := vpnOf lo psz, ppn := hi.extractLsb' 0 22 &&& ~~~pageUnused psz,
    xe := hi.getLsbD 30, we := hi.getLsbD 29, re := hi.getLsbD 28, g := hi.getLsbD 27, c := hi.getLsbD 26, psz := psz }

/-- Two virtual pages intersect: the smaller lies in the larger (R531). -/
def pagesMeet (t u : Tte) : Bool :=
  (t.vpn ^^^ u.vpn) &&& ~~~(pageUnused t.psz ||| pageUnused u.psz) = 0

/-- `undefined_map` (R531). -/
def undefinedMap (s : State) (lo hi : Word) : Bool :=
  let n := newTte s lo hi
  (s.tlbA ++ s.tlbB).any (fun t => t.v && (t.asi = n.asi || t.g || n.g) && pagesMeet t n) ||
  (n.psz ≠ mmuSza s.mmuCon && n.psz ≠ mmuSzb s.mmuCon) ||
  hasP (attrOf s (n.ppn ++ 0#10)) || lo.getLsbD 31 || !hi.getLsbD 31

/-- Which TLB takes the mapping, `true` for TLB-B: the one of its page size, either where both have it (R531, U16). -/
def mapTlb (s : State) (psz : BitVec 2) : Bool :=
  if psz = mmuSza s.mmuCon && psz = mmuSzb s.mmuCon then (Config.freeWord s.freeCount 300).getLsbD 0
  else psz ≠ mmuSza s.mmuCon

/-- The TTE of a slot, `true` for TLB-B. -/
def slotTte (s : State) (p : Bool × Nat) : Option Tte := if p.1 then s.tlbB[p.2]? else s.tlbA[p.2]?

/-- The slots that still hold the mapping of one of the latest TLBMAPs, as many as the implementation's forward progress
keeps: at least the one before, at most three (21 R243, R539, D2, log 43). -/
def keptSlots (s : State) : List (Bool × Nat) :=
  (s.recentMaps.take (max 1 (min 3 s.platform.tlbKeeps))).filter fun p => (slotTte s p).any (·.v)

/-- The indices of a TLB that `tlb_victim` may choose: all but the kept slots (R539, D2). -/
def victimSlots (s : State) (tlb : Bool) (size : Nat) : List Nat :=
  (List.range size).filter fun i => !(keptSlots s).contains (tlb, i)

/-- `tlb_victim` (R539, U17): a free choice among the slots. -/
def victimOf (s : State) (tlb : Bool) (size : Nat) : Nat :=
  let slots := victimSlots s tlb size
  slots.getD ((Config.freeWord s.freeCount 301).toNat % slots.length) 0

/-- Any other mapping may disappear (R539), but those of the kept slots: each TTE is dropped by a free bit. -/
def dropSome (s : State) (tlb : Bool) (l : List Tte) : List Tte :=
  (l.zip (List.range l.length)).map fun p =>
    if (keptSlots s).contains (tlb, p.2) then p.1
    else { p.1 with v := p.1.v && !(Config.freeWord s.freeCount (p.2 + if tlb then 128 else 0)).getLsbD 1 }

/-- The effect of TLBMAP (R531). -/
def tlbmapEffect (s : State) (lo hi : Word) : State :=
  if undefinedMap s lo hi then
    { s with
      tlbA := (List.range s.tlbA.length).map (freeTte s),
      tlbB := (List.range s.tlbB.length).map fun k => freeTte s (128 + k),
      recentMaps := [], freeCount := s.freeCount + 1 }
  else
    let n := newTte s lo hi
    let tlb := mapTlb s n.psz
    let i := victimOf s tlb (if tlb then s.tlbB.length else s.tlbA.length)
    let a := dropSome s false s.tlbA
    let b := dropSome s true s.tlbB
    { s with
      tlbA := if tlb then a else a.set i n, tlbB := if tlb then b.set i n else b,
      recentMaps := (tlb, i) :: s.recentMaps.take 2, freeCount := s.freeCount + 1 }

/-- TLBMAP (R531). -/
def execTlbmap (len : Len) (a : DReg) (s : State) : Host.Outcome State Fault Refusal :=
  finish s (do
    opd (oddPair a)
    mmuPrologue s
    .ok (advance len (tlbmapEffect s (s.dr a) (s.dr (pairOdd a)))))

/-- A TLB without the TTEs that translate an address (R533). -/
def demap (s : State) (va : Word) (l : List Tte) : List Tte :=
  l.map fun t => if t.hits (asiOf s) va then { t with v := false } else t

/-- TLBDEMAP (R533). -/
def execTlbdemap (len : Len) (a : DReg) (s : State) : Host.Outcome State Fault Refusal :=
  finish s (do
    mmuPrologue s
    .ok (advance len { s with tlbA := demap s (s.dr a) s.tlbA, tlbB := demap s (s.dr a) s.tlbB }))

/-- A TLB with every TTE invalid (R534). -/
def flush (l : List Tte) : List Tte := l.map fun t => { t with v := false }

/-- TLBFLUSH.A (R534). -/
def execTlbflushA (len : Len) (s : State) : Host.Outcome State Fault Refusal :=
  finish s (do
    mmuPrologue s
    .ok (advance len { s with tlbA := flush s.tlbA }))

/-- TLBFLUSH.B (R534). -/
def execTlbflushB (len : Len) (s : State) : Host.Outcome State Fault Refusal :=
  finish s (do
    mmuPrologue s
    .ok (advance len { s with tlbB := flush s.tlbB }))

/-- `probe_result` (R537). -/
def probeResult (s : State) (t : Tte) (i : Nat) : State :=
  { s with
    mmuTva := 0#3 ++ t.asi ++ 0#2 ++ (t.vpn &&& ~~~pageUnused t.psz),
    mmuTpa := 1#1 ++ BitVec.ofBool t.xe ++ BitVec.ofBool t.we ++ BitVec.ofBool t.re ++ BitVec.ofBool t.g ++
      BitVec.ofBool t.c ++ t.psz ++ 0#2 ++ (t.ppn &&& ~~~pageUnused t.psz),
    mmuTpx := (BitVec.ofNat 8 i).setWidth 32 }

/-- `probe_miss` (R537): V is 0, every other field is a free value (U12, log 42). -/
def probeMiss (s : State) : State :=
  { s with
    mmuTva := Config.freeWord s.freeCount 0 &&& 0x1F3FFFFF, mmuTpa := Config.freeWord s.freeCount 1 &&& 0x7F3FFFFF,
    mmuTpx := Config.freeWord s.freeCount 2 &&& 0x000000FF, freeCount := s.freeCount + 1 }

/-- The TTE at an index (11 R87): 0 to TSZ in TLB-A, 128 to 128 + TSZ in TLB-B. -/
def tteAt (s : State) (i : Nat) : Option Tte := if i < 128 then s.tlbA[i]? else s.tlbB[i - 128]?

/-- The index of the TTE that translates an address (R535). DESIGN CHOICE (log 43): of several, the one `lookupTte` takes, the
lowest index. -/
def indexOf (s : State) (va : Word) : Option Nat :=
  match s.tlbA.findIdx? (fun t => t.hits (asiOf s) va) with
  | some i => some i
  | none => (s.tlbB.findIdx? fun t => t.hits (asiOf s) va).map (128 + ·)

/-- The result of a probe at an index, if any (R537): a valid TTE there, or a miss. -/
def probeAt (s : State) (i : Option Nat) : State :=
  match i with
  | none => probeMiss s
  | some i =>
    match tteAt s i with
    | some t => if t.v then probeResult s t i else probeMiss s
    | none => probeMiss s

/-- TLBPROBE.A (R535). -/
def execTlbprobeA (len : Len) (a : DReg) (s : State) : Host.Outcome State Fault Refusal :=
  finish s (do
    mmuPrologue s
    .ok (advance len (probeAt s (indexOf s (s.dr a)))))

/-- TLBPROBE.I (R536): the index is D[a][7:0]. -/
def execTlbprobeI (len : Len) (a : DReg) (s : State) : Host.Outcome State Fault Refusal :=
  finish s (do
    mmuPrologue s
    .ok (advance len (probeAt s (some ((s.dr a).extractLsb' 0 8).toNat))))

end Sys2Proof.Machine
end

