-- ==== Sys2Proof/Machine/Fpu.lean ====
section
/-!
DEFINITION. Sys2Proof/Machine/Fpu.lean: the floating-point instructions (45 R560 to R600). A finite operand is an exact
integer multiple of 2^-149, the spacing of the denormal grid; every result is computed exactly and rounded once (R562,
R566).
-/
namespace Sys2Proof.Machine

/-! ### Format (R561 to R563) -/

/-- The sign bit. -/
def fpSign (w : Word) : Bool := w.getLsbD 31
/-- The biased exponent. -/
def fpExp (w : Word) : BitVec 8 := w.extractLsb' 23 8
/-- The fraction. -/
def fpFrac (w : Word) : BitVec 23 := w.extractLsb' 0 23
/-- A NaN of either kind (Table 20). -/
def fpIsNan (w : Word) : Bool := fpExp w = 255 && fpFrac w ≠ 0
/-- A signalling NaN (Table 20). -/
def fpIsSnan (w : Word) : Bool := fpIsNan w && !w.getLsbD 22
/-- An infinity (Table 20). -/
def fpIsInf (w : Word) : Bool := fpExp w = 255 && fpFrac w = 0
/-- A zero of either sign (Table 20). -/
def fpIsZero (w : Word) : Bool := fpExp w = 0 && fpFrac w = 0
/-- A denormal number (Table 20). -/
def fpIsDenormal (w : Word) : Bool := fpExp w = 0 && fpFrac w ≠ 0

/-- `dz` (R562): a denormal operand is replaced with the zero of its sign. -/
def fpDz (w : Word) : Word := if fpIsDenormal w then w &&& 0x80000000 else w

/-- The value of a finite number, in units of 2^-149 (R561). -/
def fpVal (w : Word) : Int :=
  let m : Nat := if fpExp w = 0 then (fpFrac w).toNat
    else (2 ^ 23 + (fpFrac w).toNat) * 2 ^ ((fpExp w).toNat - 1)
  if fpSign w then -(m : Int) else (m : Int)

/-- The zero of a sign. -/
def fpZero (neg : Bool) : Word := BitVec.ofBool neg ++ 0#31
/-- The infinity of a sign. -/
def fpInf (neg : Bool) : Word := BitVec.ofBool neg ++ 0x7F800000#31
/-- MAXF of a sign (R561). -/
def fpMax (neg : Bool) : Word := BitVec.ofBool neg ++ 0x7F7FFFFF#31
/-- MINN of a sign (R561). -/
def fpMin (neg : Bool) : Word := BitVec.ofBool neg ++ 0x00800000#31

/-- The result of a floating-point instruction and the exceptions it raises. -/
structure FpResult where
  bits : Word
  flags : FpFlags
  deriving DecidableEq, Repr, Inhabited

/-- A result with no exception. -/
def fpExact (w : Word) : FpResult := { bits := w, flags := .none }
/-- An invalid operation (R573): FI and a given result. -/
def fpInvalid (w : Word) : FpResult := { bits := w, flags := { FpFlags.none with fi := true } }

/-! ### Rounding (R564 to R566) -/

/-- `num / den` rounded to an integer by the rounding mode; `neg` is the sign of the value whose magnitude this is (R564,
R565). -/
def roundDiv (rm : BitVec 2) (neg : Bool) (num den : Nat) : Nat :=
  let q := num / den
  let r := num % den
  let up : Bool :=
    if rm = 0 then den < 2 * r || (2 * r = den && q % 2 = 1)
    else if rm = 1 then r ≠ 0 && !neg
    else if rm = 2 then r ≠ 0 && neg
    else false
  if up then q + 1 else q

/-- `fp_round` (R566) of the non-zero value of sign `neg` and magnitude `num / den` in units of 2^-149. -/
def fpRound (rm : BitVec 2) (neg : Bool) (num den : Nat) : FpResult :=
  if num < den * 2 ^ 23 then
    { bits := if roundDiv rm neg num den = 2 ^ 23 then fpMin neg else fpZero neg,
      flags := { FpFlags.none with fu := true, fx := true } }
  else
    let e := (num / den).log2 - 23
    let y := roundDiv rm neg num (den * 2 ^ e)
    let mag := e * 2 ^ 23 + y
    if 0x7F800000 ≤ mag then
      { bits := if rm = 0 then fpInf neg else if rm = 3 then fpMax neg
                else if rm = 2 then (if neg then fpInf true else fpMax false)
                else (if neg then fpMax true else fpInf false),
        flags := { FpFlags.none with fv := true, fx := true } }
    else
      { bits := BitVec.ofBool neg ++ BitVec.ofNat 31 mag,
        flags := { FpFlags.none with fx := num % (den * 2 ^ e) ≠ 0 } }

/-- The rounded value `x / den` in units of 2^-149; an exact zero takes the sign given (R566, R580). -/
def fpRoundInt (rm : BitVec 2) (zeroNeg : Bool) (x : Int) (den : Nat) : FpResult :=
  if x = 0 then fpExact (fpZero zeroNeg) else fpRound rm (decide (x < 0)) x.natAbs den

/-- `nan_check` (R563) before the rest of an instruction. -/
def nanCheck (ops : List Word) (r : FpResult) : FpResult :=
  if ops.any fpIsNan then { bits := 0x7FC00000, flags := { FpFlags.none with fi := ops.any fpIsSnan } } else r

/-- The sign of an exact zero sum of two terms (R580, G8). -/
def zeroSum (rm : BitVec 2) (x y : Bool) : Bool := if x = y then x else rm = 2

/-! ### Arithmetic (R590 to R595) -/

/-- The sum of `d` and a term `a` of given sign, `a` a magnitude without NaN; ADD.F and SUB.F (R590, R591). -/
def fpAdd (rm : BitVec 2) (d a : Word) : FpResult :=
  let d := fpDz d
  let a := fpDz a
  nanCheck [d, a]
    (if fpIsInf d && fpIsInf a && (fpSign d ^^ fpSign a) then fpInvalid 0x7FC00001
     else if fpIsInf d then fpExact d
     else if fpIsInf a then fpExact a
     else fpRoundInt rm (zeroSum rm (fpSign d) (fpSign a)) (fpVal d + fpVal a) 1)

/-- A number with its sign inverted. -/
def fpNeg (w : Word) : Word := w ^^^ 0x80000000

/-- MUL.F (R592). -/
def fpMul (rm : BitVec 2) (a b : Word) : FpResult :=
  let a := fpDz a
  let b := fpDz b
  let neg := fpSign a ^^ fpSign b
  nanCheck [a, b]
    (if (fpIsZero a && fpIsInf b) || (fpIsInf a && fpIsZero b) then fpInvalid 0x7FC00002
     else if fpIsInf a || fpIsInf b then fpExact (fpInf neg)
     else if fpIsZero a || fpIsZero b then fpExact (fpZero neg)
     else fpRoundInt rm neg (fpVal a * fpVal b) (2 ^ 149))

/-- DIV.F (R593). -/
def fpDiv (rm : BitVec 2) (a b : Word) : FpResult :=
  let a := fpDz a
  let b := fpDz b
  let neg := fpSign a ^^ fpSign b
  nanCheck [a, b]
    (if (fpIsZero a && fpIsZero b) || (fpIsInf a && fpIsInf b) then fpInvalid 0x7FC00008
     else if fpIsInf a then fpExact (fpInf neg)
     else if fpIsInf b then fpExact (fpZero neg)
     else if fpIsZero b then { bits := fpInf neg, flags := { FpFlags.none with fz := true } }
     else if fpIsZero a then fpExact (fpZero neg)
     else fpRound rm neg ((fpVal a).natAbs * 2 ^ 149) (fpVal b).natAbs)

/-- MADD.F, and MSUB.F with `sub` (R594): `d + a * b` or `d - a * b`, rounded once. -/
def fpMadd (sub : Bool) (rm : BitVec 2) (d a b : Word) : FpResult :=
  let d := fpDz d
  let a := fpDz a
  let b := fpDz b
  let pneg := (fpSign a ^^ fpSign b) ^^ sub
  let p : Int := if sub then -(fpVal a * fpVal b) else fpVal a * fpVal b
  nanCheck [d, a, b]
    (if (fpIsZero a && fpIsInf b) || (fpIsInf a && fpIsZero b) then fpInvalid 0x7FC00002
     else if fpIsInf a || fpIsInf b then
       (if fpIsInf d && (fpSign d ^^ pneg) then fpInvalid 0x7FC00001 else fpExact (fpInf pneg))
     else if fpIsInf d then fpExact d
     else fpRoundInt rm (zeroSum rm (fpSign d) pneg) (fpVal d * 2 ^ 149 + p) (2 ^ 149))

/-- The approximation of QSEED.F (R595, U33): a positive normal number, otherwise open. -/
def qseedApprox (a : Word) : Word :=
  let p := Config.qseedApprox a
  0#1 ++ BitVec.ofNat 8 (p.1.val + 1) ++ p.2

/-- QSEED.F (R595). -/
def fpQseed (a : Word) : FpResult :=
  let a := fpDz a
  nanCheck [a]
    (if fpIsZero a then fpExact (fpInf (fpSign a))
     else if fpSign a then fpInvalid 0x7FC00004
     else if fpIsInf a then fpExact 0
     else fpExact (qseedApprox a))

/-- CMP.F (R596): denormals with their values. -/
def fpCmp (a b : Word) : FpResult :=
  let un := fpIsNan a || fpIsNan b
  let fin (w : Word) : Int := if fpIsInf w then (if fpSign w then -(2 ^ 300) else 2 ^ 300) else fpVal w
  { bits := 0#26 ++ BitVec.ofBool (fpIsDenormal b) ++ BitVec.ofBool (fpIsDenormal a) ++ BitVec.ofBool un ++
      BitVec.ofBool (!un && decide (fin b < fin a)) ++ BitVec.ofBool (!un && decide (fin a = fin b)) ++
      BitVec.ofBool (!un && decide (fin a < fin b)),
    flags := { FpFlags.none with fi := fpIsSnan a || fpIsSnan b } }

/-! ### Conversions (R597 to R600) -/

/-- The value `num / den` of sign `neg` rounded to an integer in `lo .. hi`; outside it FI and the saturated result
(R597, R598). -/
def toInteger (rm : BitVec 2) (neg : Bool) (num den : Nat) (lo hi : Int) : FpResult :=
  let n : Int := if neg then -(roundDiv rm neg num den : Int) else (roundDiv rm neg num den : Int)
  if n < lo then fpInvalid (BitVec.ofInt 32 lo)
  else if hi < n then fpInvalid (BitVec.ofInt 32 hi)
  else { bits := BitVec.ofInt 32 n, flags := { FpFlags.none with fx := num % den ≠ 0 } }

/-- FTOI, FTOU and FTOQ31 (R597, R598): `a * 2^shift` rounded to an integer in `lo .. hi`. -/
def fpToInteger (rm : BitVec 2) (a : Word) (shift : Int) (lo hi : Int) : FpResult :=
  let a := fpDz a
  if fpIsNan a then fpInvalid 0
  else if fpIsInf a then fpInvalid (BitVec.ofInt 32 (if fpSign a then lo else hi))
  else
    let e : Int := shift - 149
    if 0 ≤ e then toInteger rm (fpSign a) ((fpVal a).natAbs * 2 ^ e.toNat) 1 lo hi
    else toInteger rm (fpSign a) (fpVal a).natAbs (2 ^ (-e).toNat) lo hi

/-- ITOF and Q31TOF (R599, R600): the signed integer of `a`, times 2^shift, rounded. -/
def fpOfInteger (rm : BitVec 2) (a : Word) (shift : Int) : FpResult :=
  let e : Int := shift + 149
  if 0 ≤ e then fpRoundInt rm false (a.toInt * 2 ^ e.toNat) 1
  else fpRoundInt rm false a.toInt (2 ^ (-e).toNat)

/-- The scaling operand of FTOQ31 and Q31TOF (R598, R600): D[b][8:0], two's complement. -/
def fpScale (b : Word) : Int := (b.extractLsb' 0 9).toInt

/-! ### The instructions -/

/-- The common shape (R580): UOPC with no FPU, then the result and the flags. -/
def fpShape (len : Len) (c : Fin 16) (r : FpResult) (s : State) : Res := do
  raiseIf (!s.platform.hasFpu) .uopc
  .ok (advance len { s.setD c r.bits with psw := fpFlags s.psw r.flags })

/-- ADD.F (R590). -/
def execAddF (len : Len) (c d a : DReg) (s : State) : Host.Outcome State Fault Refusal :=
  finish s (fpShape len c (fpAdd (pswRm s.psw) (s.dr d) (s.dr a)) s)

/-- SUB.F (R591): the sum with the subtrahend's sign inverted; a NaN is recognised before. -/
def execSubF (len : Len) (c d a : DReg) (s : State) : Host.Outcome State Fault Refusal :=
  finish s (fpShape len c (fpAdd (pswRm s.psw) (s.dr d) (fpNeg (s.dr a))) s)

/-- MUL.F (R592). -/
def execMulF (len : Len) (c a b : DReg) (s : State) : Host.Outcome State Fault Refusal :=
  finish s (fpShape len c (fpMul (pswRm s.psw) (s.dr a) (s.dr b)) s)

/-- DIV.F (R593). -/
def execDivF (len : Len) (c a b : DReg) (s : State) : Host.Outcome State Fault Refusal :=
  finish s (fpShape len c (fpDiv (pswRm s.psw) (s.dr a) (s.dr b)) s)

/-- MADD.F (R594). -/
def execMaddF (len : Len) (c d a b : DReg) (s : State) : Host.Outcome State Fault Refusal :=
  finish s (fpShape len c (fpMadd false (pswRm s.psw) (s.dr d) (s.dr a) (s.dr b)) s)

/-- MSUB.F (R594). -/
def execMsubF (len : Len) (c d a b : DReg) (s : State) : Host.Outcome State Fault Refusal :=
  finish s (fpShape len c (fpMadd true (pswRm s.psw) (s.dr d) (s.dr a) (s.dr b)) s)

/-- QSEED.F (R595). -/
def execQseedF (len : Len) (c a : DReg) (s : State) : Host.Outcome State Fault Refusal :=
  finish s (fpShape len c (fpQseed (s.dr a)) s)

/-- CMP.F (R596). -/
def execCmpF (len : Len) (c a b : DReg) (s : State) : Host.Outcome State Fault Refusal :=
  finish s (fpShape len c (fpCmp (s.dr a) (s.dr b)) s)

/-- FTOI (R597). -/
def execFtoi (len : Len) (c a : DReg) (s : State) : Host.Outcome State Fault Refusal :=
  finish s (fpShape len c (fpToInteger (pswRm s.psw) (s.dr a) 0 (-2147483648) 2147483647) s)

/-- FTOU (R597). -/
def execFtou (len : Len) (c a : DReg) (s : State) : Host.Outcome State Fault Refusal :=
  finish s (fpShape len c (fpToInteger (pswRm s.psw) (s.dr a) 0 0 4294967295) s)

/-- FTOQ31 (R598). -/
def execFtoq31 (len : Len) (c a b : DReg) (s : State) : Host.Outcome State Fault Refusal :=
  finish s (fpShape len c
    (fpToInteger (pswRm s.psw) (s.dr a) (31 - fpScale (s.dr b)) (-2147483648) 2147483647) s)

/-- ITOF (R599). -/
def execItof (len : Len) (c a : DReg) (s : State) : Host.Outcome State Fault Refusal :=
  finish s (fpShape len c (fpOfInteger (pswRm s.psw) (s.dr a) 0) s)

/-- Q31TOF (R600). -/
def execQ31tof (len : Len) (c a b : DReg) (s : State) : Host.Outcome State Fault Refusal :=
  finish s (fpShape len c (fpOfInteger (pswRm s.psw) (s.dr a) (fpScale (s.dr b) - 31)) s)

/-- UPDFL (R578). -/
def execUpdfl (len : Len) (a : DReg) (s : State) : Host.Outcome State Fault Refusal :=
  finish s (do
    raiseIf (!s.platform.hasFpu) .uopc
    .ok (advance len { s with psw := updateFlags s.psw (s.dr a) }))

end Sys2Proof.Machine
end

