-- ==== Sys2Proof/Machine/Interrupt.lean ====
section
/-!
DEFINITION. Sys2Proof/Machine/Interrupt.lean: the interrupt control unit (60 R640 to R650) and interrupt entry (60 R652 to
R658).
-/
namespace Sys2Proof.Machine

/-- A node that takes part in the CPU's arbitration (60 R647). -/
def Src.active (n : Src) : Bool := n.srr && n.sre && n.tos = 0 && n.srpn ≠ 0

/-- `arbitrate()` (60 R647): the highest priority number of the active nodes, or 0. -/
def arbitrate (s : State) : BitVec 8 :=
  (List.range (nodeCount s)).foldl (fun p k =>
    match getNode s k with
    | some n => if n.active && p < n.srpn then n.srpn else p
    | none => p) 0

/-- The nodes that hold the winning number; one where the configuration obeys R644. -/
def winners (s : State) (p : BitVec 8) : List Nat :=
  (List.range (nodeCount s)).filter fun k => (getNode s k).any fun n => n.active && n.srpn = p

/-- SRR of one node set or cleared. -/
def setSrr (b : Bool) (s : State) (k : Nat) : State :=
  match getNode s k with
  | some n => setNode s k { n with srr := b }
  | none => s

/-- The acknowledge (60 R649): the winner's SRR is cleared. Two nodes with one number are outside R644: a free non-empty
choice of them is acknowledged (U30, log 55). -/
def acknowledge (s : State) (p : BitVec 8) : State :=
  let w := winners s p
  if w.length ≤ 1 then w.foldl (setSrr false) s
  else
    let c := w.filter fun k => (Config.freeWord s.freeCount (400 + k)).getLsbD 0
    useFree ((if c.isEmpty then w else c).foldl (setSrr false) s)

/-- `interrupt_ready` (60 R652). -/
def interruptReady (s : State) : Bool := icrIe s.icr && icrCcpn s.icr < icrPipn s.icr

/-- `take_interrupt` (60 R655). A save that cannot be completed turns it into FCU, the request staying pending (R672). -/
def takeInterrupt (s : State) : State :=
  match save true s with
  | none => takeFcu s
  | some s1 =>
    let p := icrPipn s.icr
    acknowledge
      { s1 with
        a := entryStack s (s1.a.set 11 s.pc), psw := entryPsw s1.psw,
        icr := setField (setField (setBit s1.icr 8 false) 0 p) 16 (0 : BitVec 8),
        pc := interruptVector s p, completed := false } p

end Sys2Proof.Machine
end

