-- ==== Sys2Proof/Machine/Inputs.lean ====
section
/-!
DEFINITION. Sys2Proof/Machine/Inputs.lean: what the environment does at a boundary (60 R721 step 0, 92 section 3).
-/
namespace Sys2Proof.Machine

/-- The registers of another agent's write through the CSFR space (10_state R27, R34): the GPRs, then the registers MTCR
reaches, with MTCR's effect; so the PC is not written through its offset (R29, D17). DESIGN CHOICE (log 22). -/
def agentWrite (s : State) (off : BitVec 16) (v : Word) : State :=
  let n : Fin 16 := regOf (off.extractLsb' 2 4)
  if off.extractLsb' 6 10 = 0x3FC && off.extractLsb' 0 2 = 0 then s.setD n v
  else if off.extractLsb' 6 10 = 0x3FE && off.extractLsb' 0 2 = 0 then s.setA n v
  else mtcrEffect s off v

/-- Reset (70 R780 to R784) discards everything but memory, whose contents it leaves as they are, and the model's own
traces (log 12). -/
def resetEvent (s : State) : State :=
  { State.resetOf s.platform with
    mem := s.mem, inputs := s.inputs, freeCount := s.freeCount, breakOuts := s.breakOuts, devices := s.devices }

/-- One event of the environment. Hardware sets no request of CPU_SRC0 to CPU_SRC3 (10_state R63). DESIGN CHOICE
(log 12): a request of any node can be cleared from outside, of one whose TOS is this CPU too; another agent's `writeMem` in a
CSFR window that lies outside peripheral space writes the memory byte there, no register (10_state R34), and one that meets a
device, an SRC or a bus error writes nothing. Break-In is no state: the step asks for it (60 R721 step 3). -/
def applyEvent (s : State) (e : InputEvent) : State :=
  match e with
  | .reset => resetEvent s
  | .endinit => { s with endinit := true }
  | .setRequest k => if k < 4 then s else setSrr true s k
  | .clearRequest k => setSrr false s k
  | .nmi => { s with nmiPending := true }
  | .dae => { s with daePending := true }
  | .breakIn => s
  | .debugEnable on => { s with dbgsr := setBit s.dbgsr 0 on }
  | .writeMem a b => if plainMemory s a then s.setMemByte a b else s
  | .writeCsfr off v => agentWrite s off v
  | .writeSrc k v => match getNode s k with
    | some n => setNode s k (n.write v)
    | none => s

/-- The events of this boundary. -/
def eventsNow (s : State) : List InputEvent := s.inputs.headD []

/-- The state after the events of this boundary, which are used up. -/
def applyInputs (s : State) : State :=
  (eventsNow s).foldl applyEvent { s with inputs := s.inputs.tail }

/-- Steps 0 and 1 of R721: the events, then ICR.PIPN from the arbitration (60 R648, D7). -/
def sampled (s : State) : State :=
  let t := applyInputs s
  { t with icr := setField t.icr 16 (arbitrate t) }

end Sys2Proof.Machine
end

