-- ==== Sys2Proof/Machine/Dispatch.lean ====
section
/-!
DEFINITION. Sys2Proof/Machine/Dispatch.lean: one arm per instruction of Syntax, in the order of spec/opcode_table.json.
-/
namespace Sys2Proof.Machine

/-- The meaning of an instruction. -/
def exec (i : Instr) (s : State) : Host.Outcome State Fault Refusal :=
  match i with
  | .addF len c d a => Sys2Proof.Machine.execAddF len c d a s
  | .addc len c a op => Sys2Proof.Machine.execAddc len c a op s
  | .addscA len c b a n => Sys2Proof.Machine.execAddscA len c b a n s
  | .addscAt len c b a => Sys2Proof.Machine.execAddscAt len c b a s
  | .addx len c a op => Sys2Proof.Machine.execAddx len c a op s
  | .bisr len k => Sys2Proof.Machine.execBisr len k s
  | .call len t => Sys2Proof.Machine.execCall len t s
  | .clo len c a => Sys2Proof.Machine.execClo len c a s
  | .cls len c a => Sys2Proof.Machine.execCls len c a s
  | .clz len c a => Sys2Proof.Machine.execClz len c a s
  | .cmov len a op => Sys2Proof.Machine.execCmov len a op s
  | .cmpF len c a b => Sys2Proof.Machine.execCmpF len c a b s
  | .debug len => Sys2Proof.Machine.execDebug len s
  | .disable len => Sys2Proof.Machine.execDisable len s
  | .divF len c a b => Sys2Proof.Machine.execDivF len c a b s
  | .dsync len => Sys2Proof.Machine.execDsync len s
  | .enable len => Sys2Proof.Machine.execEnable len s
  | .eq len c a op => Sys2Proof.Machine.execEq len c a op s
  | .extrU len c a f => Sys2Proof.Machine.execExtrU len c a f s
  | .ftoi len c a => Sys2Proof.Machine.execFtoi len c a s
  | .ftoq31 len c a b => Sys2Proof.Machine.execFtoq31 len c a b s
  | .ftou len c a => Sys2Proof.Machine.execFtou len c a s
  | .ge len c a op => Sys2Proof.Machine.execGe len c a op s
  | .isync len => Sys2Proof.Machine.execIsync len s
  | .itof len c a => Sys2Proof.Machine.execItof len c a s
  | .jl len t => Sys2Proof.Machine.execJl len t s
  | .ldA len a m => Sys2Proof.Machine.execLdA len a m s
  | .ldB len a m => Sys2Proof.Machine.execLdB len a m s
  | .ldBu len a m => Sys2Proof.Machine.execLdBu len a m s
  | .ldD len a m => Sys2Proof.Machine.execLdD len a m s
  | .ldlcx len m => Sys2Proof.Machine.execLdlcx len m s
  | .ldmst len a m => Sys2Proof.Machine.execLdmst len a m s
  | .lducx len m => Sys2Proof.Machine.execLducx len m s
  | .lea len a m => Sys2Proof.Machine.execLea len a m s
  | .lt len c a op => Sys2Proof.Machine.execLt len c a op s
  | .maddF len c d a b => Sys2Proof.Machine.execMaddF len c d a b s
  | .mfcr len c off => Sys2Proof.Machine.execMfcr len c off s
  | .msubF len c d a b => Sys2Proof.Machine.execMsubF len c d a b s
  | .mtcr len off a => Sys2Proof.Machine.execMtcr len off a s
  | .mulF len c a b => Sys2Proof.Machine.execMulF len c a b s
  | .ne len c a op => Sys2Proof.Machine.execNe len c a op s
  | .nop len => Sys2Proof.Machine.execNop len s
  | .q31tof len c a b => Sys2Proof.Machine.execQ31tof len c a b s
  | .qseedF len c a => Sys2Proof.Machine.execQseedF len c a s
  | .ret len => Sys2Proof.Machine.execRet len s
  | .rfe len => Sys2Proof.Machine.execRfe len s
  | .rfm len => Sys2Proof.Machine.execRfm len s
  | .rslcx len => Sys2Proof.Machine.execRslcx len s
  | .rstv len => Sys2Proof.Machine.execRstv len s
  | .stA len a m => Sys2Proof.Machine.execStA len a m s
  | .stB len a m => Sys2Proof.Machine.execStB len a m s
  | .stD len a m => Sys2Proof.Machine.execStD len a m s
  | .stT len off bpos b => Sys2Proof.Machine.execStT len off bpos b s
  | .stlcx len m => Sys2Proof.Machine.execStlcx len m s
  | .stucx len m => Sys2Proof.Machine.execStucx len m s
  | .subF len c d a => Sys2Proof.Machine.execSubF len c d a s
  | .svlcx len => Sys2Proof.Machine.execSvlcx len s
  | .swapW len a m => Sys2Proof.Machine.execSwapW len a m s
  | .syscall len k => Sys2Proof.Machine.execSyscall len k s
  | .tlbdemap len a => Sys2Proof.Machine.execTlbdemap len a s
  | .tlbflushA len => Sys2Proof.Machine.execTlbflushA len s
  | .tlbflushB len => Sys2Proof.Machine.execTlbflushB len s
  | .tlbmap len a => Sys2Proof.Machine.execTlbmap len a s
  | .tlbprobeA len a => Sys2Proof.Machine.execTlbprobeA len a s
  | .tlbprobeI len a => Sys2Proof.Machine.execTlbprobeI len a s
  | .trapsv len => Sys2Proof.Machine.execTrapsv len s
  | .trapv len => Sys2Proof.Machine.execTrapv len s
  | .updfl len a => Sys2Proof.Machine.execUpdfl len a s
  | .ldW len a m => Sys2Proof.Machine.execLdW len a m s
  | .ldH len a m => Sys2Proof.Machine.execLdH len a m s
  | .ldHu len a m => Sys2Proof.Machine.execLdHu len a m s
  | .stW len a m => Sys2Proof.Machine.execStW len a m s
  | .stH len a m => Sys2Proof.Machine.execStH len a m s
  | .ldDa len a m => Sys2Proof.Machine.execLdDa len a m s
  | .stDa len a m => Sys2Proof.Machine.execStDa len a m s

end Sys2Proof.Machine
end

