-- ==== Sys2Proof/Machine/Boundary.lean ====
section
/-!
DEFINITION. Sys2Proof/Machine/Boundary.lean: the instruction fetch (20_memory R133, R176), the instruction a fetch gives
(30 R304, R307), and one boundary of the machine (60 R721).
-/
namespace Sys2Proof.Machine

/-! ### Fetch -/

/-- PSE: the physical address lacks the code fetch property, or the bus reports an error, or a scratchpad's range is
exceeded (60 R700). -/
def fetchError (s : State) (pa : Word) : Bool := !hasF (attrOf s pa) || busError s pa

/-- The bytes of one half-word of the instruction stream at a virtual address, with the checks of R176 but MPX. A
translation trap carries the pc (R244). DESIGN CHOICE (log 24, log 28): a fetch from a CSFR window or from an SRC's
address that lies outside peripheral space reads the memory there, no register. -/
def fetchHalf (s : State) (va : Word) : Except Stop (List Byte) := do
  let pas ← translateAll s s.pc [va] true false false
  let pa := pas.headD 0
  raiseIf (fetchError s pa || fetchError s (pa + 1)) .pse
  .ok [s.memByte pa, s.memByte (pa + 1)]

/-- The range protection on a fetch at pc (21 R209, R222: the PC alone). -/
def fetchProtect (s : State) (pc : Word) : Except Stop Unit := do
  stopIf (headChecked s pc && protSetMissing s) (.fault .missingProtectionSet)
  raiseIf (headChecked s pc && !execOk s pc) .mpx

/-- The bytes of the instruction at pc (R133, R176): VAF, VAP, MPX, PSE of the first half-word; a 32-bit instruction's
second half-word is translated and checked at its own address. -/
def fetch (s : State) : Except Stop (List Byte) := do
  let _ ← translateAll s s.pc [s.pc] true false false
  fetchProtect s s.pc
  let lo ← fetchHalf s s.pc
  if isShort (lo.headD 0) then .ok lo
  else do
    let hi ← fetchHalf s (s.pc + 2)
    .ok (lo ++ hi)

/-- J and JA, format B with op1 1DH and 9DH (30 R320): two jumps Volume 1 does not name, so terms `Other(f)` (R307). -/
def jumpOf (w : Word) : Option Target :=
  if Fld.op1 w = 0x1D then some (.rel (Fld.disp24 w))
  else if Fld.op1 w = 0x9D then some (.abs (Fld.disp24 w)) else none

/-- The instruction of bits the decoder does not know: a jump of R320, or what the parameter `decode` gives them. A value
of the parameter that names an instruction of another length than the bytes is no decoding of them (R307): it counts as
`Illegal` (log 3). -/
def decodeUnknown (bs : List Byte) : Decoded :=
  if (jumpOf (wordOf bs)).isSome then .other
  else match Config.decodeElse (wordOf bs) with
  | .instr i => if (lenBytes i.len).toNat = bs.length then .instr i else .illegal
  | .illegal => .illegal
  | .unimplemented => .unimplemented
  | .other => .other

/-- The decoder of 30 R304 and R307 on fetched bytes: this model's decoder, and the parameter `decode` on what it does not
know (D1, log 3). -/
def decodeFetched (bs : List Byte) : Decoded :=
  match decode bs with
  | .ok (i, _) => .instr i
  | .error _ => decodeUnknown bs

/-- What an `Other(f)` does (30 R307): a jump of R320 writes the PC alone, the others are a parameter. -/
def otherEffect (w : Word) (s : State) : Config.OtherEffect :=
  match jumpOf w with
  | some t => { d := s.d, a := s.a, usb := pswUsb s.psw, nextPc := targetOf s t, writesGlobal := false }
  | none => Config.otherEffect w s.pc s.d s.a (pswUsb s.psw)

/-- `Other(f)` (30 R307): it writes D, A and PSW[31:24] and sets the PC; GRWP where it writes a global address register
without permission. -/
def execOther (w : Word) (s : State) : Host.Outcome State Fault Refusal :=
  finish s (do
    let r := otherEffect w s
    grwp s r.writesGlobal
    let a := if r.writesGlobal then r.a
      else (((r.a.set 0 (s.ar 0)).set 1 (s.ar 1)).set 8 (s.ar 8)).set 9 (s.ar 9)
    .ok { s with d := r.d, a := a, psw := setField s.psw 24 r.usb, pc := evenAddr r.nextPc })

/-- What a fetch gives, executed: the instruction, IOPC, UOPC, or `Other(f)` (30 R304, R307). -/
def runFetched (s : State) (f : Except Stop (List Byte)) : Host.Outcome State Fault Refusal :=
  match f with
  | .error stop => finish s (.error stop)
  | .ok bs =>
    match decodeFetched bs with
    | .instr i => exec i s
    | .illegal => finish s (.error (.trap .iopc))
    | .unimplemented => finish s (.error (.trap .uopc))
    | .other => execOther (wordOf bs) s

/-- The instruction a fetch gives, if it gives one of R306. -/
def fetchedInstr (f : Except Stop (List Byte)) : Option Instr :=
  match f with
  | .error _ => none
  | .ok bs =>
    match decodeFetched bs with
    | .instr i => some i
    | .illegal => none
    | .unimplemented => none
    | .other => none

/-! ### Debug events around an instruction -/

/-- The data accesses of an instruction that the triggers see (61 R735): its effective address and kind; a read-modify-write
is both. Context operations are none (61 R735). DESIGN CHOICE (log 56): nor are RFM's four reads at DCX, which 61 R735 does not
name. -/
def triggerAccesses (s : State) (i : Instr) : List TriggerAccess :=
  match i with
  | .addF _ _ _ _ => []
  | .addc _ _ _ _ => []
  | .addscA _ _ _ _ _ => []
  | .addscAt _ _ _ _ => []
  | .addx _ _ _ _ => []
  | .bisr _ _ => []
  | .call _ _ => []
  | .clo _ _ _ => []
  | .cls _ _ _ => []
  | .clz _ _ _ => []
  | .cmov _ _ _ => []
  | .cmpF _ _ _ _ => []
  | .debug _ => []
  | .disable _ => []
  | .divF _ _ _ _ => []
  | .dsync _ => []
  | .enable _ => []
  | .eq _ _ _ _ => []
  | .extrU _ _ _ _ => []
  | .ftoi _ _ _ => []
  | .ftoq31 _ _ _ _ => []
  | .ftou _ _ _ => []
  | .ge _ _ _ _ => []
  | .isync _ => []
  | .itof _ _ _ => []
  | .jl _ _ => []
  | .ldA _ _ m => [{ ea := modeEa s m, read := true, write := false }]
  | .ldB _ _ m => [{ ea := modeEa s m, read := true, write := false }]
  | .ldBu _ _ m => [{ ea := modeEa s m, read := true, write := false }]
  | .ldD _ _ m => [{ ea := modeEa s m, read := true, write := false }]
  | .ldlcx _ _ => []
  | .ldmst _ _ m => [{ ea := modeEa s m, read := true, write := true }]
  | .lducx _ _ => []
  | .lea _ _ _ => []
  | .lt _ _ _ _ => []
  | .maddF _ _ _ _ _ => []
  | .mfcr _ _ _ => []
  | .msubF _ _ _ _ _ => []
  | .mtcr _ _ _ => []
  | .mulF _ _ _ _ => []
  | .ne _ _ _ _ => []
  | .nop _ => []
  | .q31tof _ _ _ _ => []
  | .qseedF _ _ _ => []
  | .ret _ => []
  | .rfe _ => []
  | .rfm _ => []
  | .rslcx _ => []
  | .rstv _ => []
  | .stA _ _ m => [{ ea := modeEa s m, read := false, write := true }]
  | .stB _ _ m => [{ ea := modeEa s m, read := false, write := true }]
  | .stD _ _ m => [{ ea := modeEa s m, read := false, write := true }]
  | .stT _ off _ _ => [{ ea := absEa off, read := true, write := true }]
  | .stlcx _ _ => []
  | .stucx _ _ => []
  | .subF _ _ _ _ => []
  | .svlcx _ => []
  | .swapW _ _ m => [{ ea := modeEa s m, read := true, write := true }]
  | .syscall _ _ => []
  | .tlbdemap _ _ => []
  | .tlbflushA _ => []
  | .tlbflushB _ => []
  | .tlbmap _ _ => []
  | .tlbprobeA _ _ => []
  | .tlbprobeI _ _ => []
  | .trapsv _ => []
  | .trapv _ => []
  | .updfl _ _ => []
  | .ldW _ _ m => [{ ea := modeEa s m, read := true, write := false }]
  | .ldH _ _ m => [{ ea := modeEa s m, read := true, write := false }]
  | .ldHu _ _ m => [{ ea := modeEa s m, read := true, write := false }]
  | .stW _ _ m => [{ ea := modeEa s m, read := false, write := true }]
  | .stH _ _ m => [{ ea := modeEa s m, read := false, write := true }]
  | .ldDa _ _ m => [{ ea := modeEa s m, read := true, write := false }]
  | .stDa _ _ m => [{ ea := modeEa s m, read := false, write := true }]

/-- The instruction's own debug event register (61 R733, R734). -/
def ownEvent (s : State) (i : Instr) : Option DebugEvent :=
  match i with
  | .addF _ _ _ _ => none
  | .addc _ _ _ _ => none
  | .addscA _ _ _ _ _ => none
  | .addscAt _ _ _ _ => none
  | .addx _ _ _ _ => none
  | .bisr _ _ => none
  | .call _ _ => none
  | .clo _ _ _ => none
  | .cls _ _ _ => none
  | .clz _ _ _ => none
  | .cmov _ _ _ => none
  | .cmpF _ _ _ _ => none
  | .debug _ => some (swEvent s)
  | .disable _ => none
  | .divF _ _ _ _ => none
  | .dsync _ => none
  | .enable _ => none
  | .eq _ _ _ _ => none
  | .extrU _ _ _ _ => none
  | .ftoi _ _ _ => none
  | .ftoq31 _ _ _ _ => none
  | .ftou _ _ _ => none
  | .ge _ _ _ _ => none
  | .isync _ => none
  | .itof _ _ _ => none
  | .jl _ _ => none
  | .ldA _ _ _ => none
  | .ldB _ _ _ => none
  | .ldBu _ _ _ => none
  | .ldD _ _ _ => none
  | .ldlcx _ _ => none
  | .ldmst _ _ _ => none
  | .lducx _ _ => none
  | .lea _ _ _ => none
  | .lt _ _ _ _ => none
  | .maddF _ _ _ _ _ => none
  | .mfcr _ _ off => some (crEvent s off)
  | .msubF _ _ _ _ _ => none
  | .mtcr _ off _ => some (crEvent s off)
  | .mulF _ _ _ _ => none
  | .ne _ _ _ _ => none
  | .nop _ => none
  | .q31tof _ _ _ _ => none
  | .qseedF _ _ _ => none
  | .ret _ => none
  | .rfe _ => none
  | .rfm _ => none
  | .rslcx _ => none
  | .rstv _ => none
  | .stA _ _ _ => none
  | .stB _ _ _ => none
  | .stD _ _ _ => none
  | .stT _ _ _ _ => none
  | .stlcx _ _ => none
  | .stucx _ _ => none
  | .subF _ _ _ _ => none
  | .svlcx _ => none
  | .swapW _ _ _ => none
  | .syscall _ _ => none
  | .tlbdemap _ _ => none
  | .tlbflushA _ => none
  | .tlbflushB _ => none
  | .tlbmap _ _ => none
  | .tlbprobeA _ _ => none
  | .tlbprobeI _ _ => none
  | .trapsv _ => none
  | .trapv _ => none
  | .updfl _ _ => none
  | .ldW _ _ _ => none
  | .ldH _ _ _ => none
  | .ldHu _ _ _ => none
  | .stW _ _ _ => none
  | .stH _ _ _ => none
  | .ldDa _ _ _ => none
  | .stDa _ _ _ => none

/-- The fetched instruction has an own event of the given timing, `before` for break before make (61 R738). -/
def ownEventDue (s : State) (i : Option Instr) (before : Bool) : Bool :=
  (i.bind (ownEvent s)).any fun e => dbgDe s.dbgsr && evtEnabled s e.reg && evtBbm e.reg = before

/-- The break-after-make trigger event after an outcome (61 R736 to R738): only where the instruction completed and had no
break-after-make event of its own; `s` is the state before the instruction. -/
def afterTriggers (s : State) (i : Option Instr) (o : Host.Outcome State Fault Refusal) :
    Host.Outcome State Fault Refusal :=
  match o with
  | .next t =>
    if t.completed && !ownEventDue s i false then
      match firstAfter s ((i.map (triggerAccesses s)).getD []) with
      | none => .next t
      | some e =>
        match debugEvent e t with
        | .ok u => .next u
        | .error stop => finish t (.error stop)
    else .next t
  | .fault r => .fault r
  | .refused r => .refused r

/-- Step 8 of R721: one instruction at pc, with the debug events around it. A break-before-make trigger comes before the
fetch checks (61 R736, R752), unless the instruction itself has such an event (61 R738, C33). -/
def executeOne (s0 : State) : Host.Outcome State Fault Refusal :=
  let s := spendAsi s0
  let f := fetch s
  let i := fetchedInstr f
  match (if ownEventDue s i true then none else firstBefore s) with
  | none => afterTriggers s i (runFetched s f)
  | some e =>
    match debugEvent e s with
    | .error stop => finish s (.error stop)
    | .ok t => if evtDiverts e then .next { t with completed := false } else afterTriggers s i (runFetched t f)

/-! ### The boundary -/

/-- Steps 4 to 8 of R721: NMI, DAE, FCD, interrupt, or one instruction. -/
def afterBreakIn (s : State) : Host.Outcome State Fault Refusal :=
  if s.nmiPending then .next (enterTrap 7 0 s.pc { s with nmiPending := false })
  else if s.daePending then .next (enterTrap 4 3 s.pc { s with daePending := false })
  else if s.fcdPending then
    .next (enterTrap 3 1 s.pc { s with fcdPending := false, syscon := setBit s.syscon 0 true })
  else if interruptReady s then .next (takeInterrupt s)
  else executeOne s

/-- The EXEVT event (61 R732). -/
def exEvent (s : State) : DebugEvent := { reg := s.exevt, code := 0 }

/-- Break-In is asserted at this boundary and raises an enabled event (60 R721 step 3). `s0` is the state before the
boundary, `s` the sampled one. DESIGN CHOICE (log 12): Break-In counts wherever it stands among the boundary's events, so a reset
listed after it does not discard it: it raises EXEVT where later events of that boundary turn the CDC on and program EXEVT
(70 R780). -/
def breakInDue (s0 s : State) : Bool :=
  (eventsNow s0).contains .breakIn && dbgDe s.dbgsr && evtEnabled s s.exevt

/-- One boundary of the machine (60 R721). -/
def boundary (s0 : State) : Host.Outcome State Fault Refusal :=
  let s := sampled s0
  if dbgHalted s.dbgsr then .next s
  else if breakInDue s0 s then
    match debugEvent (exEvent s) s with
    | .error stop => finish s (.error stop)
    | .ok t => if evtDiverts (exEvent s) then .next t else afterBreakIn t
  else afterBreakIn s

/-- An instruction's bytes placed where the next fetch reads them. -/
def placeBytes (s : State) (bs : List Byte) : State :=
  s.setMemBytes ((addrs s.pc bs.length).map fun va => (physOf s va).getD va) bs

end Sys2Proof.Machine
end

