-- ==== Sys2Proof/Machine/Step.lean ====
section
/-!
DEFINITION. Sys2Proof/Machine/Step.lean: the step of the machine, and the placing of one instruction for the host.
-/
namespace Sys2Proof.Machine

/-- One step: one boundary of 60 R721. -/
def step (s : State) : Host.Outcome State Fault Refusal := boundary s

/-- `s` with the instruction whose bits are `w` (`nbits` of them, the rest zero) stored at pc (log 8). -/
def State.withFetchWord (s : State) (nbits w : Nat) : State :=
  placeBytes s (wordBytes (BitVec.ofNat 32 (w % 2 ^ nbits)))

end Sys2Proof.Machine
end

