-- ==== Sys2Proof/Safety.lean ====
section
/-!
DEFINITION. Sys2Proof/Safety.lean: what a well-kept state and a safe step are, in the terms the statements use.
-/
namespace Sys2Proof.Machine

/-- The memory is canonical, every hard-wired bit of a register reads as the spec says, every reserved field holds 0 (log
10), and the lists that stand for arrays have the length the implementation gives them. -/
structure State.Inv (s : State) : Prop where
  /-- log 7 -/
  mem : Memory.wf s.mem = true
  /-- PC bit 0 is hard-wired 0 (10_state R29) -/
  pc : s.pc &&& 1 = 0
  /-- PSW[23:14] (R44) -/
  psw : s.psw &&& ~~~pswMask = 0
  /-- PCXI[21:20] (R45) -/
  pcxi : s.pcxi &&& ~~~pcxiMask = 0
  /-- FCX[31:20] (R47) -/
  fcx : s.fcx &&& 0xFFF00000 = 0
  /-- LCX[31:20] (R49) -/
  lcx : s.lcx &&& 0xFFF00000 = 0
  /-- ICR[31:27] and ICR[15:9] (R54) -/
  icr : s.icr &&& 0xF800FE00 = 0
  /-- BIV bit 0 (R55) -/
  biv : s.biv &&& 1 = 0
  /-- BTV bit 0 (R56) -/
  btv : s.btv &&& 1 = 0
  /-- SYSCON[31:2] (R57) -/
  syscon : s.syscon &&& 0xFFFFFFFC = 0
  /-- the CPRs' bit 0 (11_state_system R72) -/
  cpr : ∀ x n : Fin 4, s.prot[x].cprL[n] &&& 1 = 0 ∧ s.prot[x].cprU[n] &&& 1 = 0
  /-- the reserved bits of MMU_CON (11 R81) -/
  mmuCon : s.mmuCon &&& 0xFFFF7000 = 0
  /-- MMU_ASI[31:5] (11 R82) -/
  mmuAsi : s.mmuAsi &&& 0xFFFFFFE0 = 0
  /-- the reserved bits of MMU_TVA, MMU_TPA, MMU_TPX and MMU_TFA (11 R83 to R86) -/
  mmuResults : s.mmuTva &&& 0xE0C00000 = 0 ∧ s.mmuTpa &&& 0x00C00000 = 0 ∧ s.mmuTpx &&& 0xFFFFFF00 = 0 ∧
    s.mmuTfa &&& 0xFFC00000 = 0
  /-- the reserved bits of DBGSR, and HALT[1], which reads 0 (11 R91, R92) -/
  dbgsr : s.dbgsr &&& 0xFFFFE02C = 0
  /-- the reserved bits of EXEVT, CREVT and SWEVT (11 R93 to R95) -/
  events : s.exevt &&& 0xFFFFFFD0 = 0 ∧ s.crevt &&& 0xFFFFFFD0 = 0 ∧ s.swevt &&& 0xFFFFFFD0 = 0
  /-- the reserved bits of the TRnEVT (11 R98) -/
  triggers : ∀ n : Fin 8, s.trEvt[n] &&& 0xFFE070D0 = 0
  /-- the reserved bits of the CPMs (11 R74) -/
  cpm : ∀ x : Fin 4, s.prot[x].cpm &&& 0x56565656 = 0
  /-- DMS bit 0 (11 R101) -/
  dms : s.dms &&& 1 = 0
  /-- DCX[3:0] (11 R102) -/
  dcx : s.dcx &&& 0xF = 0
  /-- the TLBs have TSZ + 1 entries each (11 R87, 21 R243) -/
  tlbA : s.tlbA.length = s.platform.tlbTsz.toNat + 1
  tlbB : s.tlbB.length = s.platform.tlbTsz.toNat + 1
  /-- one SRC per further node of the platform (10_state R63) -/
  extraSrc : s.extraSrc.length = s.platform.extraNodes.length

/-- A step that stops neither with a fault nor with a refusal. -/
def State.Goes (s : State) : Prop := ∃ t, step s = .next t

/-- Steps 1 to 3 of 20_memory R175 pass for a data access of an addressing mode: no MEM, no ALN, no MPN. -/
structure AddressOk (s : State) (m : Mode) (kind : AccessKind) : Prop where
  /-- step 1: MEM -/
  segment : memTrap s m kind.size = false
  /-- step 2: ALN, with the conditions of circular addressing -/
  circular : circMisaligned s m kind.size = false
  aligned : (modeEa s m).toNat % alignOf s kind (modeEa s m) = 0
  /-- step 3: MPN -/
  nonzero : modeEa s m ≠ 0

/-- Step 4 of R175 passes: every byte is translated and permitted, no VAF, no VAP. -/
structure TranslationOk (s : State) (m : Mode) (kind : AccessKind) : Prop where
  mapped : ∀ va ∈ modeBytes s m kind.size, (physOf s va).isSome = true
  permitted : ∀ va ∈ modeBytes s m kind.size,
    pteDenies s va false kind.reads kind.writes = false ∧ upperDenied s va = false
  /-- a PTE into peripheral space is undefined (R150) -/
  page : ∀ va ∈ modeBytes s m kind.size, usesPte s va = true → ∀ pa, physOf s va = some pa → hasP (attrOf s pa) = false

/-- Step 5 of R175 passes: no MPR, no MPW. -/
structure RangesOk (s : State) (m : Mode) (kind : AccessKind) : Prop where
  /-- a protection register set that is not there is undefined (U8) -/
  setThere : ∀ a ∈ modeHeads s m kind.size, headChecked s a = true → protSetMissing s = false
  read : kind.readRange = true → ∀ a ∈ modeHeads s m kind.size, headChecked s a = true → readOk s a = true
  write : kind.writes = true → ∀ a ∈ modeHeads s m kind.size, headChecked s a = true → writeOk s a = true

/-- The conditions of R175 under which a data access is performed: none of its traps, and none of the stops the source
leaves undefined. -/
structure AccessOk (s : State) (m : Mode) (kind : AccessKind) : Prop extends
    AddressOk s m kind, TranslationOk s m kind, RangesOk s m kind where
  /-- step 6: MPP; the CSFR window (D13) -/
  peripheral : ∀ va ∈ modeBytes s m kind.size, isUser0 s = true → hasP (attrOf s ((physOf s va).getD 0#32)) = false
  window : ∀ va ∈ modeBytes s m kind.size, inCsfrWindow s ((physOf s va).getD 0#32) = false
  /-- step 7: DSE -/
  bus : kind.reads = true → ∀ va ∈ modeBytes s m kind.size, busError s ((physOf s va).getD 0#32) = false

/-- The physical addresses of the bytes of a data access (20_memory R175 step 4). -/
def accessAddrs (s : State) (m : Mode) (k : Nat) : List Word := (modeBytes s m k).map fun va => (physOf s va).getD 0#32

/-- The register conditions of an addressing mode: no OPD (60 R691), no GRWP (40 R351). -/
structure ModeOk (s : State) (m : Mode) : Prop where
  even : modeOddPair m = false
  global : modeWritesGlobal m = true → pswGw s.psw = true

/-- All bytes of an access are memory: no device, no SRC, no bus error. -/
def AllMemory (s : State) (pas : List Word) : Prop := ∀ pa ∈ pas, plainMemory s pa = true

/-! ### The data access of an instruction -/

/-- One data access as its instruction asks for it: the mode, the kind, whether a register pair operand is odd (60 R691),
whether a destination is a global address register (40 R351). -/
structure DataAccess where
  mode : Mode
  kind : AccessKind
  odd : Bool
  global : Bool
  deriving DecidableEq, Repr, Inhabited

/-- The data access of an instruction (40 R354 to R367); the other instructions have none. -/
def dataAccess (i : Instr) : Option DataAccess :=
  match i with
  | .addF _ _ _ _ => none
  | .addc _ _ _ _ => none
  | .addscA _ _ _ _ _ => none
  | .addscAt _ _ _ _ => none
  | .addx _ _ _ _ => none
  | .bisr _ _ => none
  | .call _ _ => none
  | .clo _ _ _ => none
  | .cls _ _ _ => none
  | .clz _ _ _ => none
  | .cmov _ _ _ => none
  | .cmpF _ _ _ _ => none
  | .debug _ => none
  | .disable _ => none
  | .divF _ _ _ _ => none
  | .dsync _ => none
  | .enable _ => none
  | .eq _ _ _ _ => none
  | .extrU _ _ _ _ => none
  | .ftoi _ _ _ => none
  | .ftoq31 _ _ _ _ => none
  | .ftou _ _ _ => none
  | .ge _ _ _ _ => none
  | .isync _ => none
  | .itof _ _ _ => none
  | .jl _ _ => none
  | .ldA _ a mode => some ⟨mode, .load 4 4, false, isGlobal a⟩
  | .ldB _ _ mode => some ⟨mode, .load 1 1, false, false⟩
  | .ldBu _ _ mode => some ⟨mode, .load 1 1, false, false⟩
  | .ldD _ a mode => some ⟨mode, .loadD, oddPair a, false⟩
  | .ldlcx _ _ => none
  | .ldmst _ a mode => some ⟨mode, .rmw, oddPair a, false⟩
  | .lducx _ _ => none
  | .lea _ _ _ => none
  | .lt _ _ _ _ => none
  | .maddF _ _ _ _ _ => none
  | .mfcr _ _ _ => none
  | .msubF _ _ _ _ _ => none
  | .mtcr _ _ _ => none
  | .mulF _ _ _ _ => none
  | .ne _ _ _ _ => none
  | .nop _ => none
  | .q31tof _ _ _ _ => none
  | .qseedF _ _ _ => none
  | .ret _ => none
  | .rfe _ => none
  | .rfm _ => none
  | .rslcx _ => none
  | .rstv _ => none
  | .stA _ _ mode => some ⟨mode, .store 4 4, false, false⟩
  | .stB _ _ mode => some ⟨mode, .store 1 1, false, false⟩
  | .stD _ a mode => some ⟨mode, .storeD, oddPair a, false⟩
  | .stT _ off _ _ => some ⟨.abs off, .bit, false, false⟩
  | .stlcx _ _ => none
  | .stucx _ _ => none
  | .subF _ _ _ _ => none
  | .svlcx _ => none
  | .swapW _ _ mode => some ⟨mode, .rmw, false, false⟩
  | .syscall _ _ => none
  | .tlbdemap _ _ => none
  | .tlbflushA _ => none
  | .tlbflushB _ => none
  | .tlbmap _ _ => none
  | .tlbprobeA _ _ => none
  | .tlbprobeI _ _ => none
  | .trapsv _ => none
  | .trapv _ => none
  | .updfl _ _ => none
  | .ldW _ _ mode => some ⟨mode, .load 4 2, false, false⟩
  | .ldH _ _ mode => some ⟨mode, .load 2 2, false, false⟩
  | .ldHu _ _ mode => some ⟨mode, .load 2 2, false, false⟩
  | .stW _ _ mode => some ⟨mode, .store 4 2, false, false⟩
  | .stH _ _ mode => some ⟨mode, .store 2 2, false, false⟩
  | .ldDa _ a mode => some ⟨mode, .load 8 4, oddPair a, isGlobal a || isGlobal (pairOdd a)⟩
  | .stDa _ a mode => some ⟨mode, .store 8 4, oddPair a, false⟩

/-- The register conditions of a data access: no OPD, no GRWP. -/
structure RegistersOk (s : State) (x : DataAccess) : Prop where
  pair : x.odd = false
  destination : x.global = true → pswGw s.psw = true
  mode : ModeOk s x.mode

/-- The four bytes of node `k`'s SRC belong to that node alone and are in no bus error (10_state R36). -/
structure NodeAlone (s : State) (k : Nat) : Prop where
  others : ∀ j, j ≠ k → (getNode s j).isSome = true → ∀ pa ∈ addrs (nodeAddr s k) 4, 4 ≤ (pa - nodeAddr s j).toNat
  bus : ∀ pa ∈ addrs (nodeAddr s k) 4, busError s pa = false

/-! ### Contexts -/

/-- The word at a physical address, little endian (20_memory R132). -/
def State.memWord (s : State) (a : Word) : Word :=
  s.memByte (a + 3) ++ s.memByte (a + 2) ++ s.memByte (a + 1) ++ s.memByte a

/-- A restore from the context save area at `ea`, or an LDLCX or LDUCX of it, meets no trap and no stop: the implementation
allows a CSA there, no MPP, no CSFR window, no DSE (42 R434, R437, 20_memory R175, log 26). -/
structure CsaReadable (s : State) (ea : Word) : Prop where
  allowed : csaForbidden s ea = false
  peripheral : isUser0 s = true → ∀ pa ∈ addrs ea 64, hasP (attrOf s pa) = false
  window : ∀ pa ∈ addrs ea 64, inCsfrWindow s pa = false
  bus : ∀ pa ∈ addrs ea 64, busError s pa = false

/-- A context load or store instruction meets no MEM, ALN, MPN, MPP, CSFR window or DSE (42 R435, R454 to R457); only a load
reads, so only a load meets a DSE. -/
structure CtxOk (s : State) (m : CtxMode) (loads : Bool) : Prop where
  base : ∀ b, modeBase s (ctxMode m) = some b → segment (modeEa s (ctxMode m)) = segment b
  within : segment (modeEa s (ctxMode m) + 63) = segment (modeEa s (ctxMode m))
  allowed : csaForbidden s (modeEa s (ctxMode m)) = false
  aligned : (modeEa s (ctxMode m)).toNat % 64 = 0
  nonzero : modeEa s (ctxMode m) ≠ 0
  peripheral : isUser0 s = true → ∀ pa ∈ addrs (modeEa s (ctxMode m)) 64, hasP (attrOf s pa) = false
  window : ∀ pa ∈ addrs (modeEa s (ctxMode m)) 64, inCsfrWindow s pa = false
  bus : loads = true → ∀ pa ∈ addrs (modeEa s (ctxMode m)) 64, busError s pa = false

/-- The state after a restore, its checks passed (42 R434 steps 3 to 7). -/
def restored (upper : Bool) (s : State) : State :=
  let ea := csaEa (ctxPtr s.pcxi)
  let rd := physRead s (addrs ea 64)
  let s3 := { physWrite rd.2 (addrs ea 4) (wordBytes s.fcx) with
    fcx := (ctxPtr s.pcxi).setWidth 32, pcxi := wordAt rd.1 0 &&& pcxiMask }
  if upper then { loadUpperRegs rd.1 s3 with psw := wordAt rd.1 1 &&& pswMask }
  else (loadLowerRegs rd.1 s3).setA 11 (wordAt rd.1 1)

/-! ### Boundaries -/

/-- The state an instruction sees at a boundary without events: ICR.PIPN shows the arbitration (60 R648), the boundary's
inputs are used up. -/
def State.atBoundary (s : State) : State :=
  { s with inputs := s.inputs.tail, icr := setField s.icr 16 (arbitrate s) }

/-- The state an instruction starts from at a boundary without events; it differs from `atBoundary` only where the triggers
compare with the ASI of an MMU that is not there (61 R735, U10). -/
def State.atInstruction (s : State) : State := spendAsi s.atBoundary

/-- Steps 0 to 7 of 60 R721 have nothing to do: no event of the environment, not halted, nothing pending, no interrupt
ready. -/
structure State.Quiet (s : State) : Prop where
  events : eventsNow s = []
  running : dbgHalted s.dbgsr = false
  nmi : s.nmiPending = false
  dae : s.daePending = false
  fcd : s.fcdPending = false
  interrupt : interruptReady s.atBoundary = false

/-- No trigger event comes before or after the instruction at `s.pc` (61 R736 to R738). -/
def NoTrigger (s : State) (i : Instr) : Prop :=
  (ownEventDue s (some i) true = true ∨ firstBefore s = none) ∧ firstAfter s (triggerAccesses s i) = none

/-- The half-word at the pc gets past the translation and the range protection of a fetch (20_memory R176): no VAF, no VAP,
no MPX, and no page in peripheral space (R150). -/
structure FetchOk (s : State) : Prop where
  mapped : usesPte s s.pc = true → ∃ t, lookupTte s s.pc = some t ∧ t.xe = true ∧ attrOf s (t.translate s.pc) ≠ .peripheral
  upper : virtualMode s = true → s.pc.getLsbD 31 = true → isUser0 s = true → attrOf s s.pc = .peripheral
  range : headChecked s s.pc = true → protSetMissing s = false ∧ execOk s s.pc = true

/-- A fetch of two bytes from a physical address is a PSE (60 R700). -/
def FetchError (s : State) (pa : Word) : Prop :=
  ∃ b ∈ addrs pa 2, attrOf s b = .peripheral ∨ busError s b = true

/-! ### Debug events -/

/-- DBGSR before and after a debug event of the register `reg` with the source code `code` (61 R740; that PEVT is set by a
breakpoint interrupt alone is log 61's). -/
structure EventRecorded (old new reg : Word) (code : BitVec 5) : Prop where
  source : new.extractLsb' 8 5 = code
  previous : new.getLsbD 6 = old.getLsbD 4
  suspend : new.getLsbD 4 = reg.getLsbD 5
  posted : new.getLsbD 7 = (old.getLsbD 7 || reg.getLsbD 2)
  rest : ∀ j, ¬ (j = 4 ∨ j = 6 ∨ j = 7 ∨ (8 ≤ j ∧ j < 13)) → new.getLsbD j = old.getLsbD j

/-- The state after a debug event `e` at `s` whose pc is the event's (61 R742): nothing else (EVTA 1), halted (EVTA 2), a
request of CPU_SBSRCk (EVTA 4 + k), or the entry of the breakpoint trap (EVTA 3, R748). -/
structure EventTaken (e : DebugEvent) (s t : State) : Prop where
  recorded : evtEvta e.reg ≠ 2 → EventRecorded s.dbgsr t.dbgsr e.reg e.code
  pulse : t.breakOuts = s.breakOuts + 1
  one : evtEvta e.reg = 1 → t = { s with dbgsr := t.dbgsr, breakOuts := t.breakOuts }
  halt : evtEvta e.reg = 2 → ∃ w, EventRecorded s.dbgsr w e.reg e.code ∧
    t = { s with dbgsr := w ||| 2, breakOuts := t.breakOuts }
  trap : evtEvta e.reg = 3 → AllMemory s (addrs s.dcx 16) ∧ t.ar 11 = s.pc ∧ t.pc = s.dms &&& 0xFFFFFFFE ∧
    pswPrs t.psw = 0 ∧ pswIo t.psw = 2 ∧ pswGw t.psw = false ∧ pswIs t.psw = true ∧
    t.psw.extractLsb' 0 8 = s.psw.extractLsb' 0 8 ∧ t.psw.extractLsb' 14 18 = s.psw.extractLsb' 14 18 ∧
    t.icr = s.icr &&& 0xFFFFFEFF ∧ (∀ r : Fin 16, r ≠ 11 → t.ar r = s.ar r) ∧
    (Memory.wf s.mem = true → t.memWord s.dcx = s.pcxi ∧ t.memWord (s.dcx + 4) = s.psw ∧
      t.memWord (s.dcx + 8) = s.ar 10 ∧ t.memWord (s.dcx + 12) = s.ar 11) ∧
    (∀ pa, pa ∉ addrs s.dcx 16 → t.memByte pa = s.memByte pa) ∧
    { t with dbgsr := s.dbgsr, breakOuts := s.breakOuts, mem := s.mem, a := s.a, psw := s.psw, icr := s.icr, pc := s.pc } = s
  request : ∀ (k : Nat) (n : Src), (evtEvta e.reg).toNat = 4 + k → getNode s (4 + k) = some n →
    getNode t (4 + k) = some { n with srr := true } ∧ (∀ j, j ≠ 4 + k → getNode t j = getNode s j) ∧
    t = { s with dbgsr := t.dbgsr, breakOuts := t.breakOuts, sbSrc := t.sbSrc }

/-- `b` is a state from which the boundary at `s` starts an instruction: the sampled state, or what a Break-In event left of it
(60 R721). -/
def StartsInstruction (s b : State) : Prop :=
  b = spendAsi (sampled s) ∨
  ∃ t, breakInDue s (sampled s) = true ∧ debugEvent (exEvent (sampled s)) (sampled s) = .ok t ∧ b = spendAsi t

/-- The event `e` at the state `u` asks for a breakpoint trap whose area at DCX is not memory (61 R748, log 40). -/
def DebugAreaBad (e : DebugEvent) (u : State) : Prop := evtEvta e.reg = 3 ∧ ¬ AllMemory u (addrs u.dcx 16)

/-- The condition of trigger n, `w` its TRnEVT, for an instruction at `pc` with the data accesses `acc`: a data signal and a
code signal that TRnEVT[11:8] joins, or a signal that it joins with none (61 R735, 11 R99); a range that is missing on one
side only gives no signal on that side (log 56). -/
def TriggerCondition (s : State) (n : Fin 4) (w pc : Word) (acc : List TriggerAccess) : Prop :=
  let p := protSet s
  let dp := fun k => n.val < s.platform.nDataRanges ∧ p.dpm.getLsbD (8 * n.val + k) = true
  let cp := fun k => n.val < s.platform.nCodeRanges ∧ p.cpm.getLsbD (8 * n.val + k) = true
  let within := fun (x : TriggerAccess) => p.dprL[n] ≤ x.ea ∧ x.ea < p.dprU[n]
  let dlr := ∃ x ∈ acc, (x.read = true ∧ ((dp 4 ∧ within x) ∨ (dp 2 ∧ x.ea = p.dprL[n]))) ∨
    (x.write = true ∧ ((dp 5 ∧ within x) ∨ (dp 3 ∧ x.ea = p.dprL[n])))
  let du := ∃ x ∈ acc, ((x.read = true ∧ dp 0) ∨ (x.write = true ∧ dp 1)) ∧ x.ea = p.dprU[n]
  let clr := (cp 5 ∧ p.cprL[n] ≤ pc ∧ pc < p.cprU[n]) ∨ (cp 3 ∧ pc = p.cprL[n])
  let cu := cp 0 ∧ pc = p.cprU[n]
  let joins := fun k => w.getLsbD k = true
  (joins 8 ∧ dlr ∧ clr) ∨ (joins 9 ∧ dlr ∧ cu) ∨ (joins 10 ∧ du ∧ clr) ∨ (joins 11 ∧ du ∧ cu) ∨
  (¬ joins 10 ∧ ¬ joins 11 ∧ du) ∨ (¬ joins 8 ∧ ¬ joins 9 ∧ dlr) ∨ (¬ joins 9 ∧ ¬ joins 11 ∧ cu) ∨
  (¬ joins 8 ∧ ¬ joins 10 ∧ clr)

/-- The debug event of an instruction has no action: the CDC is off, or the event is disabled (61 R738). -/
def EventOff (s : State) (e : DebugEvent) : Prop := dbgDe s.dbgsr = false ∨ evtEnabled s e.reg = false

/-! ### Flags and registers -/

/-- PSW after an integer addition of `x`, `y` and a carry (41 R401 to R403). -/
structure AddFlagsSet (old new x y : Word) (cin : Bool) : Prop where
  carry : flagC new = decide (2 ^ 32 ≤ x.toNat + y.toNat + cin.toNat)
  overflow : flagV new = decide (x.toInt + y.toInt + (cin.toNat : Int) < -(2 ^ 31) ∨
    2 ^ 31 ≤ x.toInt + y.toInt + (cin.toNat : Int))
  sticky : flagSV new = (flagSV old || flagV new)
  advance : flagAV new = ((addSum x y cin).getLsbD 31 ^^ (addSum x y cin).getLsbD 30)
  stickyAdvance : flagSAV new = (flagSAV old || flagAV new)
  rest : new.extractLsb' 0 27 = old.extractLsb' 0 27

/-- PSW after a floating-point instruction that raised `f` (45 R571): FI, FV, FZ, FU and FX are sticky, FS is written, RM
and PSW[23:0] stay. -/
structure FpFlagsSet (old new : Word) (f : FpFlags) : Prop where
  fs : new.getLsbD 31 = (f.fi || f.fv || f.fz || f.fu || f.fx)
  fi : new.getLsbD 30 = (old.getLsbD 30 || f.fi)
  fv : new.getLsbD 29 = (old.getLsbD 29 || f.fv)
  fz : new.getLsbD 28 = (old.getLsbD 28 || f.fz)
  fu : new.getLsbD 27 = (old.getLsbD 27 || f.fu)
  fx : new.getLsbD 26 = (old.getLsbD 26 || f.fx)
  rest : new.extractLsb' 0 26 = old.extractLsb' 0 26

/-- The exceptions one floating-point instruction may assert together (45 R572). -/
def FpFlags.Consistent (f : FpFlags) : Prop :=
  (f.fi.toNat + f.fv.toNat + f.fz.toNat + f.fu.toNat ≤ 1) ∧ (f.fx = true → f.fi = false ∧ f.fz = false) ∧
  ((f.fv = true ∨ f.fu = true) → f.fx = true)

/-- A finite operand (45 R561). -/
def FpFinite (w : Word) : Prop := fpExp w ≠ 255

/-- The value of a finite operand of an arithmetic instruction or a conversion in units of 2^-149: a denormal counts as zero
(45 R562). -/
def fpOperand (w : Word) : Int := if fpExp w = 0 then 0 else fpVal w

/-- `a` is less than `b` in the values of Table 20, denormals with their own (45 R561, R596). -/
def FpLess (a b : Word) : Prop :=
  if fpIsInf a = true then fpSign a = true ∧ b ≠ a
  else if fpIsInf b = true then fpSign b = false
  else fpVal a < fpVal b

/-- `n` is `x / den` rounded to an integer in the mode `rm` (45 R564, R565). -/
structure RoundedInt (rm : BitVec 2) (x : Int) (den : Nat) (n : Int) : Prop where
  nearest : rm = 0 → 2 * (n * den - x).natAbs ≤ den ∧ (2 * (n * den - x).natAbs = den → n % 2 = 0)
  up : rm = 1 → x ≤ n * den ∧ n * den < x + den
  down : rm = 2 → n * den ≤ x ∧ x < n * den + den
  zero : rm = 3 → (0 ≤ x → n * den ≤ x ∧ x < n * den + den) ∧ (x ≤ 0 → x ≤ n * den ∧ n * den < x + den)

/-- What a floating-point instruction computes from the state's registers and rounding mode: its destination and its
result; UPDFL and the other instructions compute none (45 R590 to R600). -/
def fpComputed (s : State) (i : Instr) : Option (Fin 16 × FpResult) :=
  match i with
  | .addF _ c d a => some (c, fpAdd (pswRm s.psw) (s.dr d) (s.dr a))
  | .addc _ _ _ _ => none
  | .addscA _ _ _ _ _ => none
  | .addscAt _ _ _ _ => none
  | .addx _ _ _ _ => none
  | .bisr _ _ => none
  | .call _ _ => none
  | .clo _ _ _ => none
  | .cls _ _ _ => none
  | .clz _ _ _ => none
  | .cmov _ _ _ => none
  | .cmpF _ c a b => some (c, fpCmp (s.dr a) (s.dr b))
  | .debug _ => none
  | .disable _ => none
  | .divF _ c a b => some (c, fpDiv (pswRm s.psw) (s.dr a) (s.dr b))
  | .dsync _ => none
  | .enable _ => none
  | .eq _ _ _ _ => none
  | .extrU _ _ _ _ => none
  | .ftoi _ c a => some (c, fpToInteger (pswRm s.psw) (s.dr a) 0 (-(2 ^ 31)) (2 ^ 31 - 1))
  | .ftoq31 _ c a b => some (c, fpToInteger (pswRm s.psw) (s.dr a) (31 - fpScale (s.dr b)) (-(2 ^ 31)) (2 ^ 31 - 1))
  | .ftou _ c a => some (c, fpToInteger (pswRm s.psw) (s.dr a) 0 0 (2 ^ 32 - 1))
  | .ge _ _ _ _ => none
  | .isync _ => none
  | .itof _ c a => some (c, fpOfInteger (pswRm s.psw) (s.dr a) 0)
  | .jl _ _ => none
  | .ldA _ _ _ => none
  | .ldB _ _ _ => none
  | .ldBu _ _ _ => none
  | .ldD _ _ _ => none
  | .ldlcx _ _ => none
  | .ldmst _ _ _ => none
  | .lducx _ _ => none
  | .lea _ _ _ => none
  | .lt _ _ _ _ => none
  | .maddF _ c d a b => some (c, fpMadd false (pswRm s.psw) (s.dr d) (s.dr a) (s.dr b))
  | .mfcr _ _ _ => none
  | .msubF _ c d a b => some (c, fpMadd true (pswRm s.psw) (s.dr d) (s.dr a) (s.dr b))
  | .mtcr _ _ _ => none
  | .mulF _ c a b => some (c, fpMul (pswRm s.psw) (s.dr a) (s.dr b))
  | .ne _ _ _ _ => none
  | .nop _ => none
  | .q31tof _ c a b => some (c, fpOfInteger (pswRm s.psw) (s.dr a) (fpScale (s.dr b) - 31))
  | .qseedF _ c a => some (c, fpQseed (s.dr a))
  | .ret _ => none
  | .rfe _ => none
  | .rfm _ => none
  | .rslcx _ => none
  | .rstv _ => none
  | .stA _ _ _ => none
  | .stB _ _ _ => none
  | .stD _ _ _ => none
  | .stT _ _ _ _ => none
  | .stlcx _ _ => none
  | .stucx _ _ => none
  | .subF _ c d a => some (c, fpAdd (pswRm s.psw) (s.dr d) (fpNeg (s.dr a)))
  | .svlcx _ => none
  | .swapW _ _ _ => none
  | .syscall _ _ => none
  | .tlbdemap _ _ => none
  | .tlbflushA _ => none
  | .tlbflushB _ => none
  | .tlbmap _ _ => none
  | .tlbprobeA _ _ => none
  | .tlbprobeI _ _ => none
  | .trapsv _ => none
  | .trapv _ => none
  | .updfl _ _ => none
  | .ldW _ _ _ => none
  | .ldH _ _ _ => none
  | .ldHu _ _ _ => none
  | .stW _ _ _ => none
  | .stH _ _ _ => none
  | .ldDa _ _ _ => none
  | .stDa _ _ _ => none

/-- The bits of a core register that MTCR writes (10_state R35 to R59, 11 R70 to R102, 43 R491); DBGSR has its own rule
(11 R92). -/
def csfrMask (s : State) (r : Csfr) : Word :=
  match r with
  | .pcxi => 0xFFCFFFFF
  | .psw => 0xFF003FFF
  | .pc => 0
  | .syscon => 0x00000003
  | .cpuId => 0
  | .biv => if s.endinit then 0 else 0xFFFFFFFE
  | .btv => if s.endinit then 0 else 0xFFFFFFFE
  | .isp => if s.endinit then 0 else 0xFFFFFFFF
  | .icr => 0x070001FF
  | .fcx => 0x000FFFFF
  | .lcx => 0x000FFFFF
  | .dprL _ _ => 0xFFFFFFFF
  | .dprU _ _ => 0xFFFFFFFF
  | .cprL _ _ => 0xFFFFFFFE
  | .cprU _ _ => 0xFFFFFFFE
  | .dpm _ => 0xFFFFFFFF
  | .cpm _ => 0xA9A9A9A9
  | .mmuCon => 0x0000001F
  | .mmuAsi => 0x0000001F
  | .mmuTva => 0
  | .mmuTpa => 0
  | .mmuTpx => 0
  | .mmuTfa => 0
  | .dbgsr => 0x00000090
  | .exevt => 0x0000002F
  | .crevt => 0x0000002F
  | .swevt => 0x0000002F
  | .trEvt _ => 0x001F8F2F
  | .dms => 0xFFFFFFFE
  | .dcx => 0xFFFFFFF0

/-- The registers and tables that only Supervisor mode may change by an instruction (60 R631). -/
structure SameSystem (s t : State) : Prop where
  syscon : t.syscon = s.syscon
  vectors : t.biv = s.biv ∧ t.btv = s.btv ∧ t.isp = s.isp
  lcx : t.lcx = s.lcx
  prot : t.prot = s.prot
  mmu : t.mmuCon = s.mmuCon ∧ t.mmuAsi = s.mmuAsi ∧ t.tlbA = s.tlbA ∧ t.tlbB = s.tlbB
  debug : t.exevt = s.exevt ∧ t.crevt = s.crevt ∧ t.swevt = s.swevt ∧ t.trEvt = s.trEvt ∧ t.dms = s.dms ∧ t.dcx = s.dcx
  endinit : t.endinit = s.endinit

end Sys2Proof.Machine
end

