-- ==== Sys2Proof/Certificates/Slice0/Obligations.lean ====
section
/-!
DEFINITION. Sys2Proof/Certificates/Slice0/Obligations.lean: the statements about the machine. Each docstring says which
rule of spec/ it formalises, or which log entry it rests on. `exec i s = .next { … }` gives the whole next state, so it
is the instruction's frame as well: a field the right side does not name is unchanged.
-/
section

open Sys2Proof Sys2Proof.Machine

/-! ### Encoding -/

/-- The decoder reads every well-formed instruction back from its encoding, whatever follows it (30 R320; log 1, log 2:
the encodings themselves are the model's). -/
def Obligations.DecodingInvertsEncoding : Prop :=
  ∀ i : Instr, i.wf = true → ∃ bs, encode i = some bs ∧ ∀ rest, decode (bs ++ rest) = .ok (i, rest)

/-- What the decoder gives is well formed, and it uses up exactly the instruction's length (30 R300, R307). -/
def Obligations.DecodedInstructionsAreWellFormed : Prop :=
  ∀ (bs rest : List Byte) (i : Instr), decode bs = .ok (i, rest) →
    i.wf = true ∧ bs.length = (lenBytes i.len).toNat + rest.length

/-- Words written out from the tables of 30 R320 decode to their instructions (log 1, log 2). -/
def Obligations.HandWrittenWordsDecode : Prop :=
  decode [0x00, 0x90] = .ok (.ret .w16, []) ∧
  decode [0x0D, 0x00, 0x00, 0x03] = .ok (.enable .w32, []) ∧
  decode [0x6D, 0xFF, 0xFE, 0xFF] = .ok (.call .w32 (.rel 0xFFFFFE), []) ∧
  decode [0x19, 0x21, 0x84, 0x00] = .ok (.ldW .w32 1 (.baseLong 2 0x0804), []) ∧
  decode [0x09, 0xF3, 0x3F, 0x00] = .ok (.ldB .w32 3 (.postInc 15 0x3F), []) ∧
  decode [0xCD, 0x45, 0xE0, 0x0F] = .ok (.mtcr .w32 0xFE04 5, [])

/-! ### One step -/

/-- A step at a quiet boundary runs the instruction the decoder reads at the program counter; with the debug controller
off the instruction starts from the boundary's state as it is and no trigger interferes (60 R721, 61 R735). -/
def Obligations.StepRunsTheDecodedInstruction : Prop :=
  (∀ (s : State) (i : Instr) (bs rest : List Byte), s.Quiet → fetch s.atInstruction = .ok bs →
    decode bs = .ok (i, rest) → NoTrigger s.atInstruction i → step s = exec i s.atInstruction) ∧
  (∀ (s : State) (i : Instr), dbgDe s.dbgsr = false → s.atInstruction = s.atBoundary ∧ NoTrigger s.atInstruction i)

/-- Bits that the decoder does not know: J and JA jump and change nothing but the pc (30 R320, log 3); other bits do what the
parameter `decode` says of them: IOPC, UOPC, an instruction of their length that Volume 1 names, or one it does not, which
writes D, A, PSW[31:24] and the pc alone, or is a GRWP (30 R304, R307, 60 R688, R689; log 3). -/
def Obligations.UnknownWordsFollowTheDecodeParameter : Prop :=
  ∀ (s : State) (bs : List Byte) (e : DecodeError), s.Quiet → dbgDe s.dbgsr = false →
    fetch s.atBoundary = .ok bs → decode bs = .error e →
    let w := wordOf bs
    let disp : BitVec 24 := w.extractLsb' 8 8 ++ w.extractLsb' 16 16
    let jump := fun (dest : Word) => step s = .next { s.atBoundary with pc := dest &&& 0xFFFFFFFE, completed := true }
    (w.extractLsb' 0 8 = 0x1D → jump (BitVec.ofInt 32 ((s.pc.toNat : Int) + 2 * disp.toInt))) ∧
    (w.extractLsb' 0 8 = 0x9D →
      jump ((disp.extractLsb' 20 4).setWidth 32 <<< 28 ||| (disp.extractLsb' 0 20).setWidth 32 <<< 1)) ∧
    (w.extractLsb' 0 8 ≠ 0x1D → w.extractLsb' 0 8 ≠ 0x9D →
      match Config.decodeElse w with
      | .illegal => step s = .next (enterTrap 2 1 s.pc s.atBoundary)
      | .unimplemented => step s = .next (enterTrap 2 2 s.pc s.atBoundary)
      | .instr i => step s = if (lenBytes i.len).toNat = bs.length then exec i s.atBoundary
          else .next (enterTrap 2 1 s.pc s.atBoundary)
      | .other =>
        let r := Config.otherEffect w s.pc s.d s.a (s.psw.extractLsb' 24 8)
        (r.writesGlobal = true → s.psw.getLsbD 8 = false → step s = .next (enterTrap 1 7 s.pc s.atBoundary)) ∧
        ((r.writesGlobal = true → s.psw.getLsbD 8 = true) → ∃ (a : Vector Word 16) (p : Word),
          step s = .next { s.atBoundary with
            d := r.d, a := a, psw := p, pc := r.nextPc &&& 0xFFFFFFFE, completed := true } ∧
          (∀ k : Fin 16, a[k] = if r.writesGlobal = false ∧ (k = 0 ∨ k = 1 ∨ k = 8 ∨ k = 9) then s.ar k else r.a[k]) ∧
          p.extractLsb' 24 8 = r.usb ∧ p.extractLsb' 0 24 = s.psw.extractLsb' 0 24))

/-- The traps of an instruction fetch, in order: VAF (class 0, TIN 0) where no TTE translates the pc; VAP (class 0, TIN 1)
where its TTE lacks XE, or User-0 fetches from an upper segment that is not peripheral space in virtual mode; both put the
page of the pc in MMU_TFA; MPX (class 1, TIN 4) where the range protection is on and no code range of the set allows a
directly translated pc; PSE (class 4, TIN 1) for peripheral space or a bus error. The second half-word of a 32-bit instruction
is checked at its own address, for all but MPX, and its traps carry the pc (log 32); what is fetched is memory, of an SRC's
address too (log 28) (20_memory R176, 21 R204, R209, R242, R244, R245, 60 R700). -/
def Obligations.FetchTraps : Prop :=
  ∀ s : State, s.Quiet → dbgDe s.dbgsr = false →
    let trap := fun (tcn : BitVec 3) (tin : BitVec 8) => step s = .next (enterTrap tcn tin s.pc s.atBoundary)
    let paged := fun (tin : BitVec 8) => step s = .next (enterTrap 0 tin s.pc { s.atBoundary with
      mmuTfa := s.pc >>> (10 + 2 * min (mmuSza s.mmuCon).toNat (mmuSzb s.mmuCon).toNat) })
    let denied := fun (va : Word) => (usesPte s va = true ∧ ∃ t, lookupTte s va = some t ∧ t.xe = false) ∨
      (virtualMode s = true ∧ va.getLsbD 31 = true ∧ isUser0 s = true ∧ attrOf s va ≠ .peripheral)
    (usesPte s s.pc = true → lookupTte s s.pc = none → paged 0) ∧
    (denied s.pc → paged 1) ∧
    (usesPte s s.pc = false → (virtualMode s = true → isUser0 s = false) → attrOf s s.pc ≠ .peripheral →
      attrOf s s.pc ≠ .emulator → sysProten s.syscon = true → protSetMissing s = false →
      (∀ n : Fin 4, n.val < s.platform.nCodeRanges →
        ¬ ((protSet s).cprL[n] ≤ s.pc ∧ s.pc < (protSet s).cprU[n] ∧ (protSet s).cpm.getLsbD (8 * n.val + 7) = true)) →
      trap 1 4) ∧
    (∀ pa, FetchOk s → physOf s s.pc = some pa →
      (FetchError s pa → trap 4 1) ∧
      (¬ FetchError s pa → (s.memByte pa).getLsbD 0 = true →
        (usesPte s (s.pc + 2) = true → lookupTte s (s.pc + 2) = none → paged 0) ∧
        (denied (s.pc + 2) → paged 1) ∧
        (∀ pa', physOf s (s.pc + 2) = some pa' → ¬ denied (s.pc + 2) →
          (usesPte s (s.pc + 2) = true → attrOf s pa' ≠ .peripheral) → FetchError s pa' → trap 4 1)))

/-- A halted core executes nothing and takes nothing: only the environment's events and the arbitration act (61 R744; D27, log
61). At a boundary of a running core an NMI is taken before a DAE, a DAE before an FCD, an FCD before an interrupt (60 R720,
R721). That each is taken at the very boundary where it is pending is the model's choice (D26, log 14): 60 R652 and R702
allow a later one. -/
def Obligations.PendingEventsAreTakenInOrder : Prop :=
  (∀ s : State, dbgHalted (sampled s).dbgsr = true → step s = .next (sampled s)) ∧
  ∀ s : State, eventsNow s = [] → dbgHalted s.dbgsr = false →
    (s.nmiPending = true → step s = .next (enterTrap 7 0 s.pc { s.atBoundary with nmiPending := false })) ∧
    (s.nmiPending = false → s.daePending = true →
      step s = .next (enterTrap 4 3 s.pc { s.atBoundary with daePending := false })) ∧
    (s.nmiPending = false → s.daePending = false → s.fcdPending = true →
      step s = .next (enterTrap 3 1 s.pc
        { s.atBoundary with fcdPending := false, syscon := setBit s.syscon 0 true })) ∧
    (s.nmiPending = false → s.daePending = false → s.fcdPending = false → interruptReady s.atBoundary = true →
      step s = .next (takeInterrupt s.atBoundary))

/-! ### Invariants, reset, memory -/

/-- Every step from a well-kept state gives a well-kept state: the memory stays canonical, the hard-wired bits and the reserved
fields of every register that has some keep their value, the TLBs their size (10_state R29 to R57, 11 R70 to R102; log 7,
log 10). -/
def Obligations.StepKeepsTheInvariant : Prop :=
  ∀ s t : State, s.Inv → step s = .next t → t.Inv

/-- The state after reset is well kept, whatever the implementation's parameters are (70 R782 to R784; log 5, log 6). -/
def Obligations.ResetMeetsTheInvariant : Prop :=
  ∀ p : Platform, (State.resetOf p).Inv

/-- The register values that are printed for reset (70 R784): PSW, ICR, SYSCON and the event registers; MMU_CON as R81 prints
it, NOMMU alone where there is no MMU (11 R81); the two printed values of DBGSR (70 R796). And, as the model's choice, service
request nodes that are disabled and without a request, which is the spec's default D6 and not printed (log 6); MMU_CON.V = 0
without an MMU too is the model's (log 6). -/
def Obligations.ResetHasThePrintedValues : Prop :=
  ∀ p : Platform,
    let s := State.resetOf p
    flagC s.psw = false ∧ flagV s.psw = false ∧ flagSV s.psw = false ∧ flagAV s.psw = false ∧ flagSAV s.psw = false ∧
    s.psw.getLsbD 26 = false ∧ pswRm s.psw = 0 ∧ pswPrs s.psw = 0 ∧ pswIo s.psw = 2 ∧ pswIs s.psw = true ∧
    pswGw s.psw = true ∧ pswCde s.psw = true ∧ pswCdc s.psw = 0 ∧
    icrIe s.icr = false ∧ icrCcpn s.icr = 0 ∧ icrPipn s.icr = 0 ∧
    sysProten s.syscon = false ∧ s.syscon.getLsbD 0 = false ∧ mmuV s.mmuCon = false ∧
    s.psw = 0xB80 ∧ s.icr = 0 ∧ s.syscon = 0 ∧
    (p.hasMmu = true → s.mmuCon = 0#16 ++ 0#1 ++ 0#3 ++ p.tlbTsz ++ 0#5 ∧ mmuSza s.mmuCon = 0 ∧ mmuSzb s.mmuCon = 0) ∧
    mmuNone s.mmuCon = !p.hasMmu ∧ s.dbgsr = (if p.bootHalt then 2 else 0) ∧
    s.exevt = 0 ∧ s.crevt = 0 ∧ s.swevt = 0 ∧ (∀ n : Fin 8, s.trEvt[n] = 0) ∧
    (∀ (k : Nat) (n : Src), getNode s k = some n → n.srr = false ∧ n.sre = false ∧ n.srpn = 0)

/-! ### Integer instructions -/

/-- The integer instructions; nothing but what is named changes. ADDX adds two words, ADDC two words and the carry flag; C is
the carry out of bit 31 (41 R402, R403); V, SV, AV and SAV as R401 has them (log 48). EQ, NE, LT and GE write 1 or 0 to the
whole register, by the signed values (41 R412; that LT and GE are signed is log 49's). CLO and CLZ count the equal bits from
bit 31 down, CLS the bits below bit 31 that equal it (41 R410, log 49). CMOV moves where D[15] is not zero (41 R411, log 49);
RSTV clears V, SV, AV and SAV and keeps C and every other bit of PSW (41 R407, log 48). -/
def Obligations.IntegerInstructions : Prop :=
  (∀ (len : Len) (c a : DReg) (op : Op2) (s : State),
    (∃ p, exec (.addx len c a op) s = .next
        { s with d := s.d.set c (BitVec.ofNat 32 ((s.dr a).toNat + (s.op2 op).toNat)), psw := p,
                 pc := s.pc + lenBytes len, completed := true } ∧
      AddFlagsSet s.psw p (s.dr a) (s.op2 op) false) ∧
    (∃ p, exec (.addc len c a op) s = .next
        { s with d := s.d.set c (BitVec.ofNat 32 ((s.dr a).toNat + (s.op2 op).toNat + (flagC s.psw).toNat)), psw := p,
                 pc := s.pc + lenBytes len, completed := true } ∧
      AddFlagsSet s.psw p (s.dr a) (s.op2 op) (flagC s.psw))) ∧
  (∀ (len : Len) (c a : DReg) (op : Op2) (s : State),
    let x := (s.dr a).toInt
    let y := (s.op2 op).toInt
    let put := fun (b : Bool) => ({ s with d := s.d.set c (if b then 1 else 0), pc := s.pc + lenBytes len,
                                           completed := true } : State)
    exec (.eq len c a op) s = .next (put (decide (x = y))) ∧
    exec (.ne len c a op) s = .next (put (decide (x ≠ y))) ∧
    exec (.lt len c a op) s = .next (put (decide (x < y))) ∧
    exec (.ge len c a op) s = .next (put (decide (y ≤ x)))) ∧
  (∀ (len : Len) (c a : DReg) (s : State),
    let put := fun (n : Nat) => ({ s with d := s.d.set c (BitVec.ofNat 32 n), pc := s.pc + lenBytes len,
                                          completed := true } : State)
    (∃ n, n ≤ 32 ∧ exec (.clo len c a) s = .next (put n) ∧ (∀ k, k < n → (s.dr a).getLsbD (31 - k) = true) ∧
      (n < 32 → (s.dr a).getLsbD (31 - n) = false)) ∧
    (∃ n, n ≤ 32 ∧ exec (.clz len c a) s = .next (put n) ∧ (∀ k, k < n → (s.dr a).getLsbD (31 - k) = false) ∧
      (n < 32 → (s.dr a).getLsbD (31 - n) = true)) ∧
    (∃ n, n ≤ 31 ∧ exec (.cls len c a) s = .next (put n) ∧
      (∀ k, k < n → (s.dr a).getLsbD (30 - k) = (s.dr a).getLsbD 31) ∧
      (n < 31 → (s.dr a).getLsbD (30 - n) ≠ (s.dr a).getLsbD 31))) ∧
  (∀ (len : Len) (a : DReg) (op : MovSrc) (s : State),
    exec (.cmov len a op) s = .next
      { s with d := if s.dr 15 = 0 then s.d else s.d.set a (s.movSrc op), pc := s.pc + lenBytes len,
               completed := true }) ∧
  (∀ (len : Len) (s : State), ∃ p, exec (.rstv len) s = .next { s with psw := p, pc := s.pc + lenBytes len,
                                                                       completed := true } ∧
    (∀ k, p.getLsbD k = (s.psw.getLsbD k && decide (k < 27 ∨ k = 31))))

/-- TRAPV traps with class 5, TIN 1 and its own address where PSW.V is 1, and otherwise only moves on; TRAPSV the same with
PSW.SV and TIN 2; A[11] of the handler is the address of the instruction, and the trap clears neither V nor SV (41 R405,
R406). -/
def Obligations.AssertionInstructions : Prop :=
  ∀ (len : Len) (s : State),
    let trap := fun (tin : BitVec 8) (t : State) => t = enterTrap 5 tin s.pc s ∧
      (saveFails s = false → t.ar 11 = s.pc ∧ t.dr 15 = tin.setWidth 32 ∧ t.psw.extractLsb' 29 2 = s.psw.extractLsb' 29 2)
    (s.psw.getLsbD 30 = true → ∃ t, exec (.trapv len) s = .next t ∧ trap 1 t) ∧
    (s.psw.getLsbD 30 = false → exec (.trapv len) s = .next { s with pc := s.pc + lenBytes len, completed := true }) ∧
    (s.psw.getLsbD 29 = true → ∃ t, exec (.trapsv len) s = .next t ∧ trap 2 t) ∧
    (s.psw.getLsbD 29 = false → exec (.trapsv len) s = .next { s with pc := s.pc + lenBytes len, completed := true })

/-! ### Address arithmetic and bit fields -/

/-- LEA writes the sum its form names (40 R341 to R343, R370; that it has base plus offset forms is log 50's); ADDSC.A adds the
data register scaled by 1, 2, 4 or 8; ADDSC.AT adds an eighth of it, as a signed value, and clears the two low bits (40 R371,
R372; the signed shift is log 59's). Nothing else changes but the pc. Where LEA, ADDSC.A or ADDSC.AT would write A[0], A[1],
A[8] or A[9] without PSW.GW, it is a GRWP trap and writes nothing else (40 R351, 60 R684). -/
def Obligations.AddressArithmetic : Prop :=
  (∀ (len : Len) (c b : AReg) (a : DReg) (n : BitVec 2) (m : LeaMode) (s : State),
    (isGlobal c = true → pswGw s.psw = true) →
    let put := fun (r : Word) => ({ s with a := s.a.set c r, pc := s.pc + lenBytes len, completed := true } : State)
    exec (.lea len c m) s = .next (put (match m with
      | .abs off => (off.extractLsb' 14 4).setWidth 32 <<< 28 ||| (off.extractLsb' 0 14).setWidth 32
      | .base b off => BitVec.ofInt 32 ((s.ar b).toInt + off.toInt)
      | .baseLong b off => BitVec.ofInt 32 ((s.ar b).toInt + off.toInt))) ∧
    exec (.addscA len c b a n) s = .next (put (BitVec.ofNat 32 ((s.ar b).toNat + (s.dr a).toNat * 2 ^ n.toNat))) ∧
    ∃ r : Word, exec (.addscAt len c b a) s = .next (put r) ∧ r.extractLsb' 0 2 = 0 ∧
      r.extractLsb' 2 30 = (BitVec.ofInt 32 ((s.ar b).toInt + (s.dr a).toInt / 8)).extractLsb' 2 30) ∧
  (∀ (len : Len) (c b : AReg) (a : DReg) (n : BitVec 2) (m : LeaMode) (s : State),
    (c = 0 ∨ c = 1 ∨ c = 8 ∨ c = 9) → s.psw.getLsbD 8 = false →
    exec (.lea len c m) s = .next (enterTrap 1 7 s.pc s) ∧
    exec (.addscA len c b a n) s = .next (enterTrap 1 7 s.pc s) ∧
    exec (.addscAt len c b a) s = .next (enterTrap 1 7 s.pc s))

/-- EXTR.U extracts `width` bits from bit `pos` up and zero extends (40 R373, log 49), the whole register where the width is 32,
which 00000B encodes (log 49); an odd pair operand is OPD (60 R691, log 19); with a width the rule gives no result for, the
destination alone is a free value (log 49). -/
def Obligations.BitFieldExtract : Prop :=
  ∀ (len : Len) (c a : DReg) (f : BitField) (s : State),
    (fieldOddPair f = true → exec (.extrU len c a f) s = .next (enterTrap 2 3 s.pc s)) ∧
    (fieldOddPair f = false → 1 ≤ (fieldOf s f).2 → (fieldOf s f).1 + (fieldOf s f).2 ≤ 32 →
      ∃ r : Word, exec (.extrU len c a f) s = .next
        { s with d := s.d.set c r, pc := s.pc + lenBytes len, completed := true } ∧
        ∀ k, r.getLsbD k = (decide (k < (fieldOf s f).2) && (s.dr a).getLsbD ((fieldOf s f).1 + k))) ∧
    exec (.extrU len c a (.imm 0 0)) s = .next
      { s with d := s.d.set c (s.dr a), pc := s.pc + lenBytes len, completed := true } ∧
    (∀ e : DReg, e.val % 2 = 0 → s.dr e = 0 → s.dr (pairOdd e) = 32 → exec (.extrU len c a (.pair e)) s = .next
      { s with d := s.d.set c (s.dr a), pc := s.pc + lenBytes len, completed := true }) ∧
    (fieldOddPair f = false → ¬ (1 ≤ (fieldOf s f).2 ∧ (fieldOf s f).1 + (fieldOf s f).2 ≤ 32) →
      ∃ r : Word, exec (.extrU len c a f) s = .next
        { s with d := s.d.set c r, freeCount := s.freeCount + 1, pc := s.pc + lenBytes len, completed := true })

/-! ### Addressing modes -/

/-- The reverse of bit-reverse addressing exchanges bit n with bit 15 - n, it is an involution (40 R349); the new index of the
mode is the reverse of the sum of the reverses modulo 2^16, which is the spec's own derivation (40 R348), and the index of
the rule's example runs through 0, 1024, 512, 1536, 256, its last value as the spec corrects it (40 R349, C31). The new index of
circular addressing is the sum of index and offset, brought back by one buffer length where it left the buffer, its low 16
bits, whatever the offset is; while the offset is smaller than the buffer it stays inside and moves modulo the length (40
R346). -/
def Obligations.BufferIndices : Prop :=
  (∀ (x : Half) (n : Nat), n < 16 → (reverse16 x).getLsbD n = x.getLsbD (15 - n)) ∧
  (∀ x : Half, reverse16 (reverse16 x) = x) ∧
  (∀ i m : Half, reverse16 (bitRevNext i m) = reverse16 i + reverse16 m) ∧
  (bitRevNext 0 0x400 = 1024 ∧ bitRevNext 1024 0x400 = 512 ∧ bitRevNext 512 0x400 = 1536 ∧ bitRevNext 1536 0x400 = 256) ∧
  (∀ (i l : Half) (off : BitVec 10), i.toNat < l.toNat → off.toInt.natAbs < l.toNat →
    (circNext i l off).toNat < l.toNat ∧
    ((circNext i l off).toNat : Int) = ((i.toNat : Int) + off.toInt) % (l.toNat : Int)) ∧
  (∀ (i l : Half) (off : BitVec 10),
    let tmp : Int := (i.toNat : Int) + off.toInt
    ((circNext i l off).toNat : Int) =
      (if tmp < 0 then tmp + l.toNat else if (l.toNat : Int) ≤ tmp then tmp - l.toNat else tmp) % 2 ^ 16)

/-- Pre-increment uses the sum as the address and writes it back; post-increment uses the base and writes the sum back;
the circular and bit-reverse modes use base plus index and change the low half of the odd register only; the other modes
change no register. A `k`-byte access touches the bytes from its address on, a circular one the bytes `(I + j) mod L` of its
buffer. The range protection is asked about the address, and about the start of the buffer where a circular access runs off
its end, which is the model's choice (log 34) (40 R341 to R348). -/
def Obligations.AddressingModes : Prop :=
  ∀ (s : State) (b : AReg) (off : BitVec 10) (long : BitVec 16) (short : BitVec 18),
    (modeEa s (.abs short) = (short.extractLsb' 14 4).setWidth 32 <<< 28 ||| (short.extractLsb' 0 14).setWidth 32 ∧
      modeUpdate s (.abs short) = none) ∧
    (modeEa s (.base b off) = BitVec.ofInt 32 ((s.ar b).toInt + off.toInt) ∧ modeUpdate s (.base b off) = none) ∧
    (modeEa s (.baseLong b long) = BitVec.ofInt 32 ((s.ar b).toInt + long.toInt) ∧
      modeUpdate s (.baseLong b long) = none) ∧
    (modeEa s (.preInc b off) = BitVec.ofInt 32 ((s.ar b).toInt + off.toInt) ∧
      modeUpdate s (.preInc b off) = some (b, modeEa s (.preInc b off))) ∧
    (modeEa s (.postInc b off) = s.ar b ∧
      modeUpdate s (.postInc b off) = some (b, BitVec.ofInt 32 ((s.ar b).toInt + off.toInt))) ∧
    (modeEa s (.circ b off) = BitVec.ofNat 32 ((s.ar b).toNat + (s.ar (b + 1)).toNat % 2 ^ 16) ∧
      ∃ v : Word, modeUpdate s (.circ b off) = some (b + 1, v) ∧ v >>> 16 = s.ar (b + 1) >>> 16 ∧
        v.extractLsb' 0 16 = circNext ((s.ar (b + 1)).extractLsb' 0 16) ((s.ar (b + 1)).extractLsb' 16 16) off) ∧
    (modeEa s (.bitRev b) = BitVec.ofNat 32 ((s.ar b).toNat + (s.ar (b + 1)).toNat % 2 ^ 16) ∧
      ∃ v : Word, modeUpdate s (.bitRev b) = some (b + 1, v) ∧ v >>> 16 = s.ar (b + 1) >>> 16 ∧
        v.extractLsb' 0 16 = bitRevNext ((s.ar (b + 1)).extractLsb' 0 16) ((s.ar (b + 1)).extractLsb' 16 16)) ∧
    (∀ k : Nat,
      (∀ m ∈ ([.abs short, .base b off, .baseLong b long, .preInc b off, .postInc b off, .bitRev b] : List Mode),
        modeBytes s m k = (List.range k).map (fun j => modeEa s m + BitVec.ofNat 32 j) ∧ modeHeads s m k = [modeEa s m]) ∧
      let index := ((s.ar (b + 1)).extractLsb' 0 16).toNat
      let length := ((s.ar (b + 1)).extractLsb' 16 16).toNat
      modeBytes s (.circ b off) k = (List.range k).map (fun j => s.ar b + BitVec.ofNat 32 ((index + j) % length)) ∧
      modeHeads s (.circ b off) k =
        if length < index + k then [modeEa s (.circ b off), s.ar b] else [modeEa s (.circ b off)])

/-! ### Data accesses: traps -/

/-- The first traps of an instruction with a data access, in their order: OPD, GRWP, MEM, ALN, MPN (60 R720, 20_memory R175
steps 1 to 3). MEM: the address is in another segment than its base register, or a byte in another than the address (20_memory
R123). ALN: a circular buffer that does not start at a multiple of 8, is no multiple of the size long, or ends at or before the
index (40 R347), or an address that is no multiple of the instruction's alignment (20_memory R136). That an odd pair is OPD is
the model's choice (D12, log 19), as are the segment of every byte of a wrapped circular access (log 33) and the word alignment
of a double-word at an address with no translation (log 36). -/
def Obligations.DataAccessTrapsInOrder : Prop :=
  ∀ (i : Instr) (x : DataAccess) (s : State), dataAccess i = some x →
    ((x.odd = true ∨ modeOddPair x.mode = true) → exec i s = .next (enterTrap 2 3 s.pc s)) ∧
    (x.odd = false → modeOddPair x.mode = false → (x.global = true ∨ modeWritesGlobal x.mode = true) →
      s.psw.getLsbD 8 = false → exec i s = .next (enterTrap 1 7 s.pc s)) ∧
    (RegistersOk s x →
      let ea := modeEa s x.mode
      let base : Option AReg := match x.mode with
        | .abs _ => none
        | .base b _ | .baseLong b _ | .preInc b _ | .postInc b _ | .circ b _ | .bitRev b => some b
      let halfWord := ∃ pa, physOf s ea = some pa ∧
        (attrOf s pa = .cacheable ∧ (usesPte s ea = true → ∃ e, lookupTte s ea = some e ∧ e.c = true) ∨
          0xD0000000 ≤ pa.toNat ∧ pa.toNat < min 0xD4000000 (0xD0000000 + s.platform.dsprBytes))
      let shape := fun (size align : Nat) => x.kind.size = size ∧
        let mem := (∃ b, base = some b ∧ ea.extractLsb' 28 4 ≠ (s.ar b).extractLsb' 28 4) ∨
          ∃ va ∈ modeBytes s x.mode size, va.extractLsb' 28 4 ≠ ea.extractLsb' 28 4
        let circular := ∃ b off, x.mode = .circ b off ∧
          let index := ((s.ar (b + 1)).extractLsb' 0 16).toNat
          let length := ((s.ar (b + 1)).extractLsb' 16 16).toNat
          (s.ar b).toNat % 8 ≠ 0 ∨ length % size ≠ 0 ∨ length ≤ index
        let aln := circular ∨ ea.toNat % align ≠ 0
        (mem → exec i s = .next (enterTrap 2 5 s.pc s)) ∧ (¬ mem → aln → exec i s = .next (enterTrap 2 4 s.pc s)) ∧
        (¬ mem → ¬ aln → ea = 0 → exec i s = .next (enterTrap 1 6 s.pc s)) ∧
        (¬ mem → ¬ aln → ea ≠ 0 → AddressOk s x.mode x.kind)
      match i with
      | .ldB _ _ _ | .ldBu _ _ _ | .stB _ _ _ | .stT _ _ _ _ => shape 1 1
      | .ldH _ _ _ | .ldHu _ _ _ | .stH _ _ _ => shape 2 2
      | .ldW _ _ _ | .stW _ _ _ => shape 4 2
      | .ldA _ _ _ | .stA _ _ _ | .swapW _ _ _ | .ldmst _ _ _ => shape 4 4
      | .ldDa _ _ _ | .stDa _ _ _ => shape 8 4
      | .ldD _ _ _ | .stD _ _ _ => (halfWord → shape 8 2) ∧ (¬ halfWord → shape 8 4)
      | _ => False)

/-- With PROTEN = 1, a read at a directly translated address that is neither peripheral nor emulator space and lies in no data
range with RE = 1 is MPR; a write that no MPR stops, at such an address in no data range with WE = 1, is MPW, in virtual mode
too. The addresses asked about are the effective address and, where a circular access wraps, the start of the buffer (21
R203, R204, R206, R222, R245; log 33, log 34); ST.T asks for write permission alone (D31, log 35). -/
def Obligations.RangeProtectionTraps : Prop :=
  ∀ (i : Instr) (x : DataAccess) (s : State), dataAccess i = some x → RegistersOk s x → AddressOk s x.mode x.kind →
    TranslationOk s x.mode x.kind → sysProten s.syscon = true → protSetMissing s = false →
    let heads := modeHeads s x.mode x.kind.size
    let ranged := fun (a : Word) => usesPte s a = false ∧ attrOf s a ≠ .peripheral ∧ attrOf s a ≠ .emulator
    let allows := fun (a : Word) (bit : Nat) => ∃ n : Fin 4, n.val < s.platform.nDataRanges ∧
      (protSet s).dprL[n] ≤ a ∧ a < (protSet s).dprU[n] ∧ (protSet s).dpm.getLsbD (8 * n.val + bit) = true
    (x.kind.readRange = true → (∃ a ∈ heads, ranged a ∧ ¬ allows a 6) → exec i s = .next (enterTrap 1 2 s.pc s)) ∧
    ((x.kind.readRange = true → ∀ a ∈ heads, ranged a → allows a 6) → x.kind.writes = true →
      (∃ a ∈ heads, ranged a ∧ ¬ allows a 7) → exec i s = .next (enterTrap 1 3 s.pc s))

/-- In virtual mode a byte without a TTE makes the access a VAF, and where every byte has one, a byte whose TTE forbids the
read or the write, or a User-0 access to an upper segment that is not peripheral space, makes it a VAP; MMU_TFA gets the
page of the effective address (21 R242, R244, R245; that it is the effective address's whichever byte it is, log 32). -/
def Obligations.TranslationTraps : Prop :=
  ∀ (i : Instr) (x : DataAccess) (s : State), dataAccess i = some x → RegistersOk s x → AddressOk s x.mode x.kind →
    let paged := fun (tin : BitVec 8) => exec i s = .next (enterTrap 0 tin s.pc { s with
      mmuTfa := modeEa s x.mode >>> (10 + 2 * min (mmuSza s.mmuCon).toNat (mmuSzb s.mmuCon).toNat) })
    let bytes := modeBytes s x.mode x.kind.size
    let forbidden := fun (va : Word) =>
      (usesPte s va = true ∧ ∃ t, lookupTte s va = some t ∧
        ((x.kind.reads = true ∧ t.re = false) ∨ (x.kind.writes = true ∧ t.we = false))) ∨
      (virtualMode s = true ∧ va.getLsbD 31 = true ∧ isUser0 s = true ∧ attrOf s va ≠ .peripheral)
    ((∃ va ∈ bytes, usesPte s va = true ∧ lookupTte s va = none) → paged 0) ∧
    ((∀ va ∈ bytes, usesPte s va = true → lookupTte s va ≠ none) → (∃ va ∈ bytes, forbidden va) → paged 1)

/-- Behind translation and range protection: a User-0 access to peripheral space is MPP; an access to the CSFR window is
refused (D13, log 24); a read for which the bus reports an error is DSE; a store for which it does sets `dae_pending`, writes
nothing there and goes on (20_memory R175 steps 6 and 7, 21 R245, 60 R683, R701, R702). That ST.T counts as a read here, DSE
rather than a pending DAE, is the model's inference (log 35): 60 R701 names LDMST and SWAP.W alone. -/
def Obligations.PeripheralAndBusErrors : Prop :=
  ∀ (i : Instr) (x : DataAccess) (s : State), dataAccess i = some x → RegistersOk s x → AddressOk s x.mode x.kind →
    TranslationOk s x.mode x.kind → RangesOk s x.mode x.kind →
    let bytes := accessAddrs s x.mode x.kind.size
    (isUser0 s = true → (∃ pa ∈ bytes, attrOf s pa = .peripheral) → exec i s = .next (enterTrap 1 5 s.pc s)) ∧
    ((isUser0 s = true → ∀ pa ∈ bytes, attrOf s pa ≠ .peripheral) →
      ((∃ pa ∈ bytes, inCsfrWindow s pa = true) → exec i s = .refused .csfrAccess) ∧
      ((∀ pa ∈ bytes, inCsfrWindow s pa = false) → (∃ pa ∈ bytes, busError s pa = true) →
        (x.kind.reads = true → exec i s = .next (enterTrap 4 2 s.pc s)) ∧
        (x.kind.reads = false → ∃ t, exec i s = .next t ∧ t.daePending = true ∧
          ∀ pa, busError s pa = true → t.memByte pa = s.memByte pa)))

/-! ### Data accesses: loads and stores -/

/-- What every load, store and read-modify-write leaves alone where its access is in order: all memory but the bytes a
storing form stores to, at the physical addresses of its own bytes, and every register and status but the general registers,
the pc, the service requests, the device log, the free-value counter and `dae_pending` (20_memory R175, 40 R354). -/
def Obligations.DataAccessFrame : Prop :=
  ∀ (i : Instr) (x : DataAccess) (s : State), dataAccess i = some x → RegistersOk s x → AccessOk s x.mode x.kind →
    ∃ t, exec i s = .next t ∧ t.pc = s.pc + lenBytes i.len ∧
      (x.kind.writes = false → t.mem = s.mem ∧ t.cpuSrc = s.cpuSrc ∧ t.sbSrc = s.sbSrc ∧ t.extraSrc = s.extraSrc ∧
        t.daePending = s.daePending) ∧
      (∀ pa, pa ∉ accessAddrs s x.mode x.kind.size → t.memByte pa = s.memByte pa) ∧
      { t with d := s.d, a := s.a, pc := s.pc, mem := s.mem, cpuSrc := s.cpuSrc, sbSrc := s.sbSrc,
               extraSrc := s.extraSrc, devices := s.devices, freeCount := s.freeCount, daePending := s.daePending,
               completed := s.completed } = s

/-- Memory: two canonical lists that read alike are the same list (the model's form of memory, log 7); bytes written read
back, and all other memory and all other state stays (20_memory R120, R131). -/
def Obligations.MemoryIsCanonicalAndReadsBack : Prop :=
  (∀ m n : List Host.Cell, Memory.wf m = true → Memory.wf n = true →
    (∀ x, x < 2 ^ 32 → Memory.get m x = Memory.get n x) → m = n) ∧
  (∀ (s : State) (pas : List Word) (bs : List Byte), Memory.wf s.mem = true → AllMemory s pas → pas.Nodup →
    pas.length = bs.length →
    physRead (physWrite s pas bs) pas = (bs, physWrite s pas bs) ∧
    (∀ pa, pa ∉ pas → (physWrite s pas bs).memByte pa = s.memByte pa) ∧
    { physWrite s pas bs with mem := s.mem } = s)

/-- The data-register loads: LD.B and LD.H sign extend, LD.BU and LD.HU zero extend, LD.W is little endian, LD.D fills D[a]
from EA and D[a+1] from EA + 4; the mode's register update comes with them; memory gives the bytes at the physical
addresses (40 R354, R355, R358, R362, 20_memory R127, R132). -/
def Obligations.DataLoads : Prop :=
  ∀ (len : Len) (a : DReg) (m : Mode) (s : State), ModeOk s m →
    let rd := fun (k : Nat) => physRead s (accessAddrs s m k)
    let after := fun (k : Nat) (v : Word) =>
      ({ applyUpdate (rd k).2 (modeUpdate s m) with
          d := s.d.set a v, pc := s.pc + lenBytes len, completed := true } : State)
    let byte := fun (k j : Nat) => (rd k).1.getD j 0
    (∀ k, AllMemory s (accessAddrs s m k) → rd k = ((accessAddrs s m k).map s.memByte, s)) ∧
    (AccessOk s m (.load 1 1) →
      exec (.ldB len a m) s = .next (after 1 ((byte 1 0).signExtend 32)) ∧
      exec (.ldBu len a m) s = .next (after 1 ((byte 1 0).setWidth 32))) ∧
    (AccessOk s m (.load 2 2) →
      exec (.ldH len a m) s = .next (after 2 ((byte 2 1 ++ byte 2 0).signExtend 32)) ∧
      exec (.ldHu len a m) s = .next (after 2 ((byte 2 1 ++ byte 2 0).setWidth 32))) ∧
    (AccessOk s m (.load 4 2) →
      exec (.ldW len a m) s = .next (after 4 (byte 4 3 ++ byte 4 2 ++ byte 4 1 ++ byte 4 0))) ∧
    (a.val % 2 = 0 → AccessOk s m .loadD →
      exec (.ldD len a m) s = .next { after 8 0 with
        d := (s.d.set a (byte 8 3 ++ byte 8 2 ++ byte 8 1 ++ byte 8 0)).set (pairOdd a)
          (byte 8 7 ++ byte 8 6 ++ byte 8 5 ++ byte 8 4) })

/-- LD.A and LD.DA: A[a] from EA, A[a+1] from EA + 4; where the mode updates a register that is loaded, that register holds
the loaded word or the updated address, which is open (40 R350, R360, R361, log 18). -/
def Obligations.AddressLoads : Prop :=
  ∀ (len : Len) (a : AReg) (m : Mode) (s : State), ModeOk s m →
    let t := fun (k : Nat) => applyUpdate (physRead s (accessAddrs s m k)).2 (modeUpdate s m)
    let byte := fun (k j : Nat) => (physRead s (accessAddrs s m k)).1.getD j 0
    let holds := fun (k : Nat) (r : AReg) (v w : Word) => w = v ∨ (modeTarget m = some r ∧ w = (t k).ar r)
    ((isGlobal a = true → pswGw s.psw = true) → AccessOk s m (.load 4 4) →
      ∃ w, holds 4 a (byte 4 3 ++ byte 4 2 ++ byte 4 1 ++ byte 4 0) w ∧
        exec (.ldA len a m) s = .next { t 4 with
          a := (t 4).a.set a w, freeCount := (t 4).freeCount + (if modeTarget m = some a then 1 else 0),
          pc := s.pc + lenBytes len, completed := true }) ∧
    (a.val % 2 = 0 → ((isGlobal a || isGlobal (a + 1)) = true → pswGw s.psw = true) → AccessOk s m (.load 8 4) →
      ∃ v w, holds 8 a (byte 8 3 ++ byte 8 2 ++ byte 8 1 ++ byte 8 0) v ∧
        holds 8 (a + 1) (byte 8 7 ++ byte 8 6 ++ byte 8 5 ++ byte 8 4) w ∧
        exec (.ldDa len a m) s = .next { t 8 with
          a := ((t 8).a.set a v).set (pairOdd a) w,
          freeCount := (t 8).freeCount + (if modeTarget m = some a ∨ modeTarget m = some (a + 1) then 1 else 0),
          pc := s.pc + lenBytes len, completed := true })

/-- The stores: ST.B the low byte, ST.H the low half, ST.W the word, ST.D D[a] at EA and D[a+1] at EA + 4, ST.A and ST.DA
the address registers, each little endian at the physical addresses of the access; where the mode updates a register that is
stored, the original or the updated value is stored, which is open (40 R350, R354, R356, R359, R361, R362, log 18). That ST.B
and ST.H store the low bits is the family's (log 50). -/
def Obligations.Stores : Prop :=
  ∀ (len : Len) (a : Fin 16) (m : Mode) (s : State), ModeOk s m →
    let after := fun (bs : List Byte) => ({ applyUpdate (physWrite s (accessAddrs s m bs.length) bs) (modeUpdate s m) with
      pc := s.pc + lenBytes len, completed := true } : State)
    let bytes := fun (w : Word) => [w.extractLsb' 0 8, w.extractLsb' 8 8, w.extractLsb' 16 8, w.extractLsb' 24 8]
    let stored := fun (r : AReg) (w : Word) => w = s.ar r ∨ modeUpdate s m = some (r, w)
    (AccessOk s m (.store 1 1) → exec (.stB len a m) s = .next (after ((bytes (s.dr a)).take 1))) ∧
    (AccessOk s m (.store 2 2) → exec (.stH len a m) s = .next (after ((bytes (s.dr a)).take 2))) ∧
    (AccessOk s m (.store 4 2) → exec (.stW len a m) s = .next (after (bytes (s.dr a)))) ∧
    (a.val % 2 = 0 → AccessOk s m .storeD →
      exec (.stD len a m) s = .next (after (bytes (s.dr a) ++ bytes (s.dr (a + 1))))) ∧
    (AccessOk s m (.store 4 4) → ∃ w, stored a w ∧ exec (.stA len a m) s = .next { after (bytes w) with
      freeCount := (after (bytes w)).freeCount + (if modeTarget m = some a then 1 else 0) }) ∧
    (a.val % 2 = 0 → AccessOk s m (.store 8 4) → ∃ v w, stored a v ∧ stored (a + 1) w ∧
      exec (.stDa len a m) s = .next { after (bytes v ++ bytes w) with
        freeCount := (after (bytes v ++ bytes w)).freeCount +
          (if modeTarget m = some a ∨ modeTarget m = some (a + 1) then 1 else 0) })

/-- LDMST replaces the bits of the word that the mask D[a+1] selects with those of D[a], SWAP.W exchanges the word with
D[a], ST.T writes one bit of a byte; each reads and writes the same addresses in one step (40 R365 to R367, 20_memory
R180). What each computes is the family's, as the rules mark it (log 50). -/
def Obligations.ReadModifyWrites : Prop :=
  ∀ (len : Len) (a : DReg) (m : Mode) (off : BitVec 18) (k : BitVec 3) (b : Bool) (s : State),
    let pas := accessAddrs s m 4
    let old := (physRead s pas).1.getD 3 0 ++ (physRead s pas).1.getD 2 0 ++ (physRead s pas).1.getD 1 0 ++
      (physRead s pas).1.getD 0 0
    let bytes := fun (w : Word) => [w.extractLsb' 0 8, w.extractLsb' 8 8, w.extractLsb' 16 8, w.extractLsb' 24 8]
    let after := fun (w : Word) =>
      ({ applyUpdate (physWrite (physRead s pas).2 pas (bytes w)) (modeUpdate s m) with
        pc := s.pc + lenBytes len, completed := true } : State)
    (ModeOk s m → AccessOk s m .rmw →
      (a.val % 2 = 0 → ∃ w : Word, exec (.ldmst len a m) s = .next (after w) ∧
        ∀ j, w.getLsbD j = if (s.dr (a + 1)).getLsbD j then (s.dr a).getLsbD j else old.getLsbD j) ∧
      exec (.swapW len a m) s = .next { after (s.dr a) with d := s.d.set a old }) ∧
    (AccessOk s (.abs off) .bit →
      let one := accessAddrs s (.abs off) 1
      ∃ x : Byte, exec (.stT len off k b) s = .next { physWrite (physRead s one).2 one [x] with
          pc := s.pc + lenBytes len, completed := true } ∧
        ∀ j, j < 8 → x.getLsbD j = if j = k.toNat then b else ((physRead s one).1.getD 0 0).getLsbD j)

/-- A service request node through its SRC: LD.W reads SRR, SRE, TOS and SRPN with SETR and CLRR as 0; ST.W writes SRE, TOS
and SRPN, sets SRR where SETR alone is 1, clears it where CLRR alone is 1, keeps it otherwise, and changes no other node and
nothing else; hardware sets and clears SRR whatever SRE is, but sets none of the four of CPU_SRC (10_state R36, R60, R61, R62,
R63); that it may clear any node's, whatever TOS is, is the model's choice (log 12). The premises: the access is in order,
covers exactly the four bytes of the node, and the platform gives them to that node alone. -/
def Obligations.ServiceRequestNodes : Prop :=
  (∀ (len : Len) (a : DReg) (m : Mode) (s : State) (k : Nat) (n : Src), ModeOk s m → getNode s k = some n →
    accessAddrs s m 4 = addrs (nodeAddr s k) 4 → NodeAlone s k →
    (AccessOk s m (.load 4 2) → ∃ w : Word, exec (.ldW len a m) s = .next { applyUpdate s (modeUpdate s m) with
        d := s.d.set a w, pc := s.pc + lenBytes len, completed := true } ∧
      w.extractLsb' 14 18 = 0 ∧ w.getLsbD 13 = n.srr ∧ w.getLsbD 12 = n.sre ∧ w.extractLsb' 10 2 = n.tos ∧
      w.extractLsb' 8 2 = 0 ∧ w.extractLsb' 0 8 = n.srpn) ∧
    (AccessOk s m (.store 4 2) → ∃ t, exec (.stW len a m) s = .next t ∧
      (∃ n', getNode t k = some n' ∧ n'.sre = (s.dr a).getLsbD 12 ∧ n'.tos = (s.dr a).extractLsb' 10 2 ∧
        n'.srpn = (s.dr a).extractLsb' 0 8 ∧
        ((s.dr a).getLsbD 15 = true → (s.dr a).getLsbD 14 = false → n'.srr = true) ∧
        ((s.dr a).getLsbD 15 = false → (s.dr a).getLsbD 14 = true → n'.srr = false) ∧
        ((s.dr a).getLsbD 15 = (s.dr a).getLsbD 14 → n'.srr = n.srr)) ∧
      (∀ j, j ≠ k → getNode t j = getNode s j) ∧
      { t with cpuSrc := s.cpuSrc, sbSrc := s.sbSrc, extraSrc := s.extraSrc } =
        { applyUpdate s (modeUpdate s m) with pc := s.pc + lenBytes len, completed := true })) ∧
  (∀ (s : State) (k : Nat) (n : Src) (b : Bool), getNode s k = some n →
    eventsNow s = [if b then .setRequest k else .clearRequest k] →
    (b = true → k < 4 → getNode (sampled s) k = some n) ∧
    (b = false ∨ 4 ≤ k → getNode (sampled s) k = some { n with srr := b }) ∧
    ∀ j, j ≠ k → getNode (sampled s) j = getNode s j)

/-! ### Calls, returns and contexts -/

/-- CALL saves the upper context, counts the call where counting is enabled, sets CDE, links A[11] and jumps; JL only links
and jumps. A relative target is the instruction's own address and twice the displacement, an absolute one has four bits of
segment and twenty of half-word offset, an indirect one drops bit 0 (42 R445, R460; log 54). -/
def Obligations.CallsAndJumps : Prop :=
  ∀ (len : Len) (t : Target) (s : State),
    let dest := match t with
      | .rel disp => BitVec.ofInt 32 ((s.pc.toNat : Int) + 2 * disp.toInt)
      | .abs disp => (disp.extractLsb' 20 4).setWidth 32 <<< 28 ||| (disp.extractLsb' 0 20).setWidth 32 <<< 1
      | .ind a => s.ar a &&& 0xFFFFFFFE
    exec (.jl len t) s = .next { s with a := s.a.set 11 (s.pc + lenBytes len), pc := dest, completed := true } ∧
    (saveFails s = false → (cdcEnabled s.psw && cdcAtMax (pswCdc s.psw)) = false →
      ∃ p, exec (.call len t) s = .next { dropUpper (saved true s) with
          psw := p, a := (dropUpper (saved true s)).a.set 11 (s.pc + lenBytes len), pc := dest, completed := true } ∧
        pswCde p = true ∧ p.extractLsb' 8 24 = s.psw.extractLsb' 8 24 ∧
        (cdcEnabled s.psw = false → pswCdc p = pswCdc s.psw) ∧
        (cdcEnabled s.psw = true → cdcWidth (pswCdc p) = cdcWidth (pswCdc s.psw) ∧
          cdcCount (pswCdc p) = cdcCount (pswCdc s.psw) + 1))

/-- RET and RFE restore the upper context that PCXI points to and go on at A[11] as it was before the restore; RFE also
restores ICR.IE and ICR.CCPN from PCXI as it was before the restore, which is the spec's choice D28 (log 64). RET goes on with
the counter off or not zero, RFE with it off or zero; that RFE asks PSW.CDE too is log 47's (42 R443, R444). -/
def Obligations.Returns : Prop :=
  ∀ (len : Len) (s : State), ctxPtr s.pcxi ≠ 0 → pcxiUl s.pcxi = true → CsaReadable s (csaEa (ctxPtr s.pcxi)) →
    ((cdcEnabled s.psw && cdcIsZero (pswCdc s.psw)) = false →
      exec (.ret len) s = .next { restored true s with pc := s.ar 11 &&& 0xFFFFFFFE, completed := true }) ∧
    ((cdcEnabled s.psw && !cdcIsZero (pswCdc s.psw)) = false →
      ∃ i : Word, exec (.rfe len) s = .next { restored true s with pc := s.ar 11 &&& 0xFFFFFFFE, icr := i, completed := true } ∧
        icrIe i = pcxiPie s.pcxi ∧ icrCcpn i = pcxiPcpn s.pcxi ∧ i.extractLsb' 9 23 = s.icr.extractLsb' 9 23)

/-- SVLCX saves the lower context; BISR saves it, then enables interrupts and sets the priority, in Supervisor mode only;
RSLCX restores it (42 R451 to R453; that BISR is privileged is log 21's). -/
def Obligations.LowerContexts : Prop :=
  ∀ (len : Len) (k : BitVec 8) (s : State),
    (saveFails s = false →
      exec (.svlcx len) s = .next { saved false s with pc := s.pc + lenBytes len, completed := true }) ∧
    (isSupervisor s = false → exec (.bisr len k) s = .next (enterTrap 1 1 s.pc s)) ∧
    (isSupervisor s = true → saveFails s = false →
      ∃ i : Word, exec (.bisr len k) s = .next { saved false s with
          icr := i, pc := s.pc + lenBytes len, completed := true } ∧
        icrIe i = true ∧ icrCcpn i = k ∧ i.extractLsb' 9 23 = s.icr.extractLsb' 9 23) ∧
    (ctxPtr s.pcxi ≠ 0 → pcxiUl s.pcxi = false → CsaReadable s (csaEa (ctxPtr s.pcxi)) →
      exec (.rslcx len) s = .next { restored false s with pc := s.pc + lenBytes len, completed := true })

/-- STLCX and STUCX store the 16 words of the lower and of the upper context at the effective address; LDLCX and LDUCX load
words 2 to 15 of them and no other register (42 R454 to R457; the order of the words is log 46's, words 2 to 15
log 45's). -/
def Obligations.ContextLoadsAndStores : Prop :=
  ∀ (len : Len) (m : CtxMode) (s : State),
    let pas := addrs (modeEa s (ctxMode m)) 64
    (CtxOk s m false →
      exec (.stlcx len m) s = .next { physWrite s pas (wordsBytes (lowerWords s)) with
        pc := s.pc + lenBytes len, completed := true } ∧
      exec (.stucx len m) s = .next { physWrite s pas (wordsBytes (upperWords s)) with
        pc := s.pc + lenBytes len, completed := true }) ∧
    (CtxOk s m true → ∃ l u : State,
      exec (.ldlcx len m) s = .next { l with pc := s.pc + lenBytes len, completed := true } ∧
      exec (.lducx len m) s = .next { u with pc := s.pc + lenBytes len, completed := true } ∧
      { l with a := s.a, d := s.d } = (physRead s pas).2 ∧ { u with a := s.a, d := s.d } = (physRead s pas).2 ∧
      (∀ r : Fin 16, (¬ (2 ≤ r.val ∧ r.val < 8) → l.ar r = s.ar r) ∧ (8 ≤ r.val → l.dr r = s.dr r)) ∧
      (∀ r : Fin 16, (r.val < 12 → r.val ≠ 10 → r.val ≠ 11 → u.ar r = s.ar r) ∧ (r.val < 8 → u.dr r = s.dr r)) ∧
      (∀ k : Fin 16, 2 ≤ k.val → (lowerWords l)[k.val]? = some (wordAt (physRead s pas).1 k.val) ∧
        (upperWords u)[k.val]? = some (wordAt (physRead s pas).1 k.val)))

/-- The traps of the context instructions: FCU before CDO on CALL; CSU, then CDU, then CTYP on RET; CSU, then NEST, then CTYP
on RFE; CSU, then CTYP on RSLCX; FCU where the save of SVLCX or BISR cannot be completed (42 R439, R441 to R445, R451 to
R453; 60 R720). That RFE's NEST asks PSW.CDE is log 47's, what the counter of no bits does log 60's (D34), and which errors make
a save fail log 26's. -/
def Obligations.ContextTraps : Prop :=
  ∀ (len : Len) (t : Target) (k : BitVec 8) (s : State),
    (ctxPtr s.fcx = 0 → exec (.call len t) s = .next (takeFcu s)) ∧
    (ctxPtr s.fcx ≠ 0 → (cdcEnabled s.psw && cdcAtMax (pswCdc s.psw)) = true →
      exec (.call len t) s = .next (enterTrap 3 2 s.pc s)) ∧
    ((cdcEnabled s.psw && cdcAtMax (pswCdc s.psw)) = false → saveFails s = true →
      exec (.call len t) s = .next (takeFcu s)) ∧
    (saveFails s = true → exec (.svlcx len) s = .next (takeFcu s)) ∧
    (saveFails s = true → isSupervisor s = true → exec (.bisr len k) s = .next (takeFcu s)) ∧
    (ctxPtr s.pcxi = 0 → exec (.ret len) s = .next (enterTrap 3 5 s.pc s) ∧
      exec (.rfe len) s = .next (enterTrap 3 5 s.pc s) ∧ exec (.rslcx len) s = .next (enterTrap 3 5 s.pc s)) ∧
    (ctxPtr s.pcxi ≠ 0 →
      ((cdcEnabled s.psw && cdcIsZero (pswCdc s.psw)) = true → exec (.ret len) s = .next (enterTrap 3 3 s.pc s)) ∧
      ((cdcEnabled s.psw && cdcIsZero (pswCdc s.psw)) = false → pcxiUl s.pcxi = false →
        exec (.ret len) s = .next (enterTrap 3 6 s.pc s)) ∧
      ((cdcEnabled s.psw && !cdcIsZero (pswCdc s.psw)) = true → exec (.rfe len) s = .next (enterTrap 3 7 s.pc s)) ∧
      ((cdcEnabled s.psw && !cdcIsZero (pswCdc s.psw)) = false → pcxiUl s.pcxi = false →
        exec (.rfe len) s = .next (enterTrap 3 6 s.pc s)) ∧
      (pcxiUl s.pcxi = true → exec (.rslcx len) s = .next (enterTrap 3 6 s.pc s)))

/-- The traps of a context operation's access. STLCX, STUCX, LDLCX and LDUCX: MEM where the address leaves the segment of its
base, the 64 bytes leave its segment, or the implementation forbids a context save area there; ALN where it is no multiple of
64; MPN at 0; then MPP in User-0 mode, a refusal in the CSFR window (log 24), DSE where a load meets a bus error, and a
pending DAE where a store does (42 R435, R454 to R457, 20_memory R136, R175). That a forbidden context save area is MEM, here
and on a restore, is a choice, the spec's own (D15, marked in 60 R693; log 25). RET, RFE and RSLCX, their own checks passed,
restore with the same MEM, MPP, refusal and DSE, which is the model's choice (log 26). -/
def Obligations.ContextAccessTraps : Prop :=
  (∀ (i : Instr) (len : Len) (m : CtxMode) (loads : Bool) (s : State),
    (if loads then i = .ldlcx len m ∨ i = .lducx len m else i = .stlcx len m ∨ i = .stucx len m) →
    let ea := modeEa s (ctxMode m)
    let pas := addrs ea 64
    let mem := (∃ b, modeBase s (ctxMode m) = some b ∧ segment ea ≠ segment b) ∨ segment (ea + 63) ≠ segment ea ∨
      csaForbidden s ea = true
    let trap := fun (tcn : BitVec 3) (tin : BitVec 8) => exec i s = .next (enterTrap tcn tin s.pc s)
    (mem → trap 2 5) ∧ (¬ mem → ea.toNat % 64 ≠ 0 → trap 2 4) ∧ (¬ mem → ea = 0 → trap 1 6) ∧
    (¬ mem → ea.toNat % 64 = 0 → ea ≠ 0 →
      (isUser0 s = true → (∃ pa ∈ pas, attrOf s pa = .peripheral) → trap 1 5) ∧
      ((isUser0 s = true → ∀ pa ∈ pas, attrOf s pa ≠ .peripheral) →
        ((∃ pa ∈ pas, inCsfrWindow s pa = true) → exec i s = .refused .csfrAccess) ∧
        ((∀ pa ∈ pas, inCsfrWindow s pa = false) → (∃ pa ∈ pas, busError s pa = true) →
          (loads = true → trap 4 2) ∧
          (loads = false → ∃ t, exec i s = .next t ∧ t.daePending = true ∧
            ∀ pa, busError s pa = true → t.memByte pa = s.memByte pa))))) ∧
  (∀ (i : Instr) (len : Len) (s : State), ctxPtr s.pcxi ≠ 0 →
    (i = .ret len ∧ (cdcEnabled s.psw && cdcIsZero (pswCdc s.psw)) = false ∧ pcxiUl s.pcxi = true) ∨
    (i = .rfe len ∧ (cdcEnabled s.psw && !cdcIsZero (pswCdc s.psw)) = false ∧ pcxiUl s.pcxi = true) ∨
    (i = .rslcx len ∧ pcxiUl s.pcxi = false) →
    let ea := csaEa (ctxPtr s.pcxi)
    let pas := addrs ea 64
    let trap := fun (tcn : BitVec 3) (tin : BitVec 8) => exec i s = .next (enterTrap tcn tin s.pc s)
    (csaForbidden s ea = true → trap 2 5) ∧
    (csaForbidden s ea = false → isUser0 s = true → (∃ pa ∈ pas, attrOf s pa = .peripheral) → trap 1 5) ∧
    (csaForbidden s ea = false → (isUser0 s = true → ∀ pa ∈ pas, attrOf s pa ≠ .peripheral) →
      ((∃ pa ∈ pas, inCsfrWindow s pa = true) → exec i s = .refused .csfrAccess) ∧
      ((∀ pa ∈ pas, inCsfrWindow s pa = false) → (∃ pa ∈ pas, busError s pa = true) → trap 4 2)))

/-- A save into memory: the 16 words of the context at the head of the free list, word 0 the old PCXI; FCX takes the link
word, PCXI the old FCX, the kind, ICR.IE and ICR.CCPN; `fcd_pending` where FCX had reached LCX; nothing else changes
(42 R433, R438, 10_state R46, R52; log 46 for the order of the words; that every save, CALL's, SVLCX's and BISR's too, takes
PCPN and PIE from ICR is log 47's). -/
def Obligations.SavedContextLayout : Prop :=
  ∀ (upper : Bool) (s : State), Memory.wf s.mem = true →
    AllMemory s (addrs (csaEa (ctxPtr s.fcx)) 64) →
    let ea := csaEa (ctxPtr s.fcx)
    let t := saved upper s
    (∀ k : Fin 16, (ctxWords upper s)[k.val]? = some (t.memWord (ea + BitVec.ofNat 32 (4 * k.val)))) ∧
    (ctxWords upper s)[0]? = some s.pcxi ∧
    (∀ pa, pa ∉ addrs ea 64 → t.memByte pa = s.memByte pa) ∧
    t.fcx = ((s.memWord ea).extractLsb' 0 20).setWidth 32 ∧
    ctxPtr t.pcxi = s.fcx.extractLsb' 0 20 ∧ pcxiUl t.pcxi = upper ∧ pcxiPie t.pcxi = s.icr.getLsbD 8 ∧
    pcxiPcpn t.pcxi = s.icr.extractLsb' 0 8 ∧ t.pcxi.extractLsb' 20 2 = 0 ∧
    (t.fcdPending = true ↔ s.fcdPending = true ∨ s.fcx.extractLsb' 0 20 = s.lcx.extractLsb' 0 20) ∧
    { t with mem := s.mem, fcx := s.fcx, pcxi := s.pcxi, fcdPending := s.fcdPending } = s

/-- A RET right after a CALL gives the caller back all its registers and its free list, and goes on after the CALL; only the
link word of the freed context area, the other words of that area and `fcd_pending` differ (42 R443, R445, R470, R471). The
premises: the context area is memory, the save can be completed, and counting is enabled and not at its maximum, or switched
off by CDC = 1111111B, or off by CDE = 0 with a count that is not zero, since the CALL turns it on (42 R445). -/
def Obligations.ReturnResumesTheCaller : Prop :=
  ∀ (len len' : Len) (t : Target) (s : State), s.Inv → saveFails s = false →
    AllMemory s (addrs (csaEa (ctxPtr s.fcx)) 64) →
    (pswCdc s.psw = 0x7F ∨ (pswCde s.psw = true ∧ cdcAtMax (pswCdc s.psw) = false) ∨
      (pswCde s.psw = false ∧ cdcIsZero (pswCdc s.psw) = false)) →
    ∃ u v, exec (.call len t) s = .next u ∧ exec (.ret len') u = .next v ∧
      { v with pc := s.pc, mem := s.mem, fcdPending := s.fcdPending, freeCount := s.freeCount, completed := s.completed } = s ∧
      v.pc = s.pc + lenBytes len ∧ (∀ pa, pa ∉ addrs (csaEa (ctxPtr s.fcx)) 64 → v.memByte pa = s.memByte pa) ∧
      ctxPtr (v.memWord (csaEa (ctxPtr s.fcx))) = ctxPtr (s.memWord (csaEa (ctxPtr s.fcx)))

/-- An RFE right after a SYSCALL gives back all registers, PSW, ICR and the free list, and goes on after the SYSCALL (42
R444, 60 R668, R670). That ICR comes back rests on RFE taking PIE and PCPN from PCXI before it is reloaded, a choice that 42
R444 marks (D28, log 64). -/
def Obligations.SystemCallReturns : Prop :=
  ∀ (len len' : Len) (k : BitVec 8) (s : State), s.Inv → saveFails s = false →
    AllMemory s (addrs (csaEa (ctxPtr s.fcx)) 64) →
    ∃ u v, exec (.syscall len k) s = .next u ∧ exec (.rfe len') u = .next v ∧
      { v with pc := s.pc, mem := s.mem, fcdPending := s.fcdPending, freeCount := s.freeCount, completed := s.completed } = s ∧
      v.pc = s.pc + lenBytes len ∧ (∀ pa, pa ∉ addrs (csaEa (ctxPtr s.fcx)) 64 → v.memByte pa = s.memByte pa)

/-! ### Exceptions -/

/-- SYSCALL takes trap class 6 with its constant as TIN, returning after itself; what taking a trap does where the upper
context can be saved, and the reduced FCU entry where it cannot (43 R500; 60 R668, R670 to R672). -/
def Obligations.TrapEntry : Prop :=
  ∀ (tcn : BitVec 3) (tin : BitVec 8) (ra : Word) (len : Len) (s : State),
    exec (.syscall len tin) s = .next (enterTrap 6 tin (s.pc + lenBytes len) s) ∧
    (saveFails s = false →
      let t := enterTrap tcn tin ra s
      t.ar 11 = ra ∧ t.dr 15 = tin.setWidth 32 ∧ t.pc = (s.btv ||| (tcn.setWidth 32 <<< 5)) &&& 0xFFFFFFFE ∧
      t.ar 10 = (if pswIs s.psw then s.ar 10 else s.isp) ∧
      pswPrs t.psw = 0 ∧ pswIo t.psw = 2 ∧ pswIs t.psw = true ∧ pswGw t.psw = false ∧ pswCde t.psw = true ∧
      pswCdc t.psw = 0 ∧ t.psw.extractLsb' 14 18 = s.psw.extractLsb' 14 18 ∧
      (∀ j, t.icr.getLsbD j = (s.icr.getLsbD j && decide (j ≠ 8))) ∧
      (∀ r : Fin 16, (r.val < 8 → t.dr r = s.dr r) ∧ (r.val < 10 → t.ar r = s.ar r)) ∧
      { t with d := (saved true s).d, a := (saved true s).a, psw := (saved true s).psw, icr := (saved true s).icr,
               pc := (saved true s).pc, freeCount := (saved true s).freeCount, completed := (saved true s).completed } =
        saved true s) ∧
    (saveFails s = true →
      let t := enterTrap tcn tin ra s
      t = takeFcu s ∧ t.dr 15 = 4 ∧ (pswIs s.psw = false → t.ar 10 = s.isp) ∧ pswIo t.psw = 2 ∧ pswPrs t.psw = 0 ∧
      (∀ j, t.icr.getLsbD j = (s.icr.getLsbD j && decide (j ≠ 8))) ∧ t.pc = (s.btv ||| 0x60) &&& 0xFFFFFFFE)

/-- The arbitration finds the highest priority number of the active nodes, all eight bits of SRPN compared (log 53), or 0;
taking an interrupt saves the upper context, enters the handler at BIV with that number as CCPN and CDE = 1 (D18, log 60),
clears PIPN and the winner's SRR and no other node's request; of several winners, which 60 R644 forbids, a non-empty choice is
cleared (log 55); a save that cannot be completed turns it into FCU, the requests staying (60 R644, R647, R649, R655, R658,
R672). -/
def Obligations.InterruptEntry : Prop :=
  ∀ s : State,
    (∀ k n, getNode s k = some n → n.srr = true → n.sre = true → n.tos = 0 → n.srpn ≠ 0 → n.srpn ≤ arbitrate s) ∧
    (arbitrate s ≠ 0 → ∃ k n, getNode s k = some n ∧ n.srr = true ∧ n.sre = true ∧ n.tos = 0 ∧ n.srpn = arbitrate s) ∧
    (∀ k, k ∈ winners s (icrPipn s.icr) ↔ ∃ n, getNode s k = some n ∧ n.srr = true ∧ n.sre = true ∧ n.tos = 0 ∧
      n.srpn ≠ 0 ∧ n.srpn = icrPipn s.icr) ∧
    (saveFails s = true → takeInterrupt s = takeFcu s) ∧
    (saveFails s = false → AllMemory s (addrs (csaEa (ctxPtr s.fcx)) 64) → winners s (icrPipn s.icr) ≠ [] →
      let t := takeInterrupt s
      let cleared := fun (k : Nat) => ∃ n, getNode s k = some n ∧ getNode t k = some { n with srr := false }
      t.ar 11 = s.pc ∧ t.pc = (s.biv ||| ((icrPipn s.icr).setWidth 32 <<< 5)) &&& 0xFFFFFFFE ∧
      t.ar 10 = (if pswIs s.psw then s.ar 10 else s.isp) ∧
      icrCcpn t.icr = icrPipn s.icr ∧ icrIe t.icr = false ∧ icrPipn t.icr = 0 ∧ t.psw = entryPsw s.psw ∧
      t.pcxi = (saved true s).pcxi ∧ t.fcx = (saved true s).fcx ∧ t.mem = (saved true s).mem ∧
      (∀ r : Fin 16, (r.val < 8 → t.dr r = s.dr r) ∧ (r.val < 10 → t.ar r = s.ar r)) ∧
      (∃ k ∈ winners s (icrPipn s.icr), cleared k) ∧
      ∀ j, getNode t j = getNode s j ∨ (j ∈ winners s (icrPipn s.icr) ∧ cleared j))

/-! ### Core registers and modes -/

/-- MFCR copies the register of its offset to D[c], in every mode (D23, log 21), and 0 where the offset names none (log 22); the
offsets are those of the core register map, TRnEVT at FD20H + 4n (10_state R33, 11 R90, 43 R490). A register of an absent MMU
reads as a free value (log 41). -/
def Obligations.CoreRegisterReads : Prop :=
  ∀ (len : Len) (c : DReg) (s : State),
    let reads := fun (off : BitVec 16) (v : Word) => EventOff s (crEvent s off) →
      exec (.mfcr len c off) s = .next { s with d := s.d.set c v, pc := s.pc + lenBytes len, completed := true }
    (reads 0xFE00 s.pcxi ∧ reads 0xFE04 s.psw ∧ reads 0xFE08 s.pc ∧ reads 0xFE14 s.syscon ∧
      reads 0xFE18 (s.platform.cpuIdMod ++ 0xC0#8 ++ s.platform.cpuIdRev) ∧ reads 0xFE20 s.biv ∧ reads 0xFE24 s.btv ∧
      reads 0xFE28 s.isp ∧ reads 0xFE2C s.icr ∧ reads 0xFE38 s.fcx ∧ reads 0xFE3C s.lcx) ∧
    (reads 0xFD00 s.dbgsr ∧ reads 0xFD08 s.exevt ∧ reads 0xFD0C s.crevt ∧ reads 0xFD10 s.swevt ∧
      (∀ n : Fin 8, n.val < s.platform.nTriggers → reads (0xFD20 + BitVec.ofNat 16 (4 * n.val)) s.trEvt[n]) ∧
      reads 0xFD40 s.dms ∧ reads 0xFD44 s.dcx) ∧
    (mmuNone s.mmuCon = false → reads 0x8000 s.mmuCon ∧ reads 0x8004 s.mmuAsi ∧ reads 0x800C s.mmuTva ∧
      reads 0x8010 s.mmuTpa ∧ reads 0x8014 s.mmuTpx ∧ reads 0x8018 s.mmuTfa) ∧
    (∀ x n : Fin 4, x.val < s.platform.nProtSets →
      let o : BitVec 16 := BitVec.ofNat 16 (0x400 * x.val + 8 * n.val)
      let q : BitVec 16 := BitVec.ofNat 16 (0x80 * x.val)
      (n.val < s.platform.nDataRanges →
        reads (0xC000 + o) s.prot[x].dprL[n] ∧ reads (0xC004 + o) s.prot[x].dprU[n]) ∧
      (n.val < s.platform.nCodeRanges →
        reads (0xD000 + o) s.prot[x].cprL[n] ∧ reads (0xD004 + o) s.prot[x].cprU[n]) ∧
      reads (0xE000 + q) s.prot[x].dpm ∧ reads (0xE200 + q) s.prot[x].cpm) ∧
    (∀ off, csfrOf s.platform off = none → reads off 0) ∧
    (∀ off r, csfrOf s.platform off = some r → csfrFree s r = true → EventOff s (crEvent s off) →
      ∃ v, exec (.mfcr len c off) s = .next { s with
        d := s.d.set c v, freeCount := s.freeCount + 1, pc := s.pc + lenBytes len, completed := true })

/-- MTCR in Supervisor mode writes the register of its offset; outside Supervisor mode it is PRIV and writes nothing; a write
that switches translation under the instruction's own address is the one the source leaves undefined (43 R491, 60 R680;
log 21, log 39). At an offset that names no register it has no effect (D25, log 22); the PC's and ENDINIT's cases are
`csfrWrite`'s (log 22, log 23). -/
def Obligations.CoreRegisterWrites : Prop :=
  ∀ (len : Len) (off : BitVec 16) (a : DReg) (s : State), EventOff s (crEvent s off) →
    (isSupervisor s = false → exec (.mtcr len off a) s = .next (enterTrap 1 1 s.pc s)) ∧
    (isSupervisor s = true → mmuSwitchBad s off (s.dr a) = false →
      (∀ r, csfrOf s.platform off = some r → exec (.mtcr len off a) s = .next { csfrWrite s r (s.dr a) with
        pc := s.pc + lenBytes len, completed := true }) ∧
      (csfrOf s.platform off = none → exec (.mtcr len off a) s = .next { s with
        pc := s.pc + lenBytes len, completed := true })) ∧
    (isSupervisor s = true → mmuSwitchBad s off (s.dr a) = true →
      exec (.mtcr len off a) s = .fault .mmuSwitchUndefined)

/-- A written register reads back with its writable bits as written and every other bit as before, and no other register of
the map changes; BIV, BTV and ISP are writable in the initialisation state only (00_scope R12, 10_state R35, R38, R40 to R59,
11_state_system R70 to R102). DBGSR's HALT is the one field with a rule of its own (11 R92). That reserved bits ignore a write
is log 10's (D21), that the PC does log 22's (D17), that BIV, BTV and ISP do after initialisation log 23's (D24). -/
def Obligations.CoreRegistersReadBack : Prop :=
  ∀ (off : BitVec 16) (r : Csfr) (v : Word) (s : State), s.Inv → csfrOf s.platform off = some r → csfrFree s r = false →
    (r ≠ .dbgsr → csfrRead (csfrWrite s r v) r = (csfrRead s r &&& ~~~csfrMask s r) ||| (v &&& csfrMask s r)) ∧
    (r = .dbgsr → csfrRead (csfrWrite s r v) r &&& 0xFFFFFFFD = (s.dbgsr &&& 0xFFFFFF6D) ||| (v &&& 0x00000090) ∧
      (dbgHalted (csfrWrite s r v).dbgsr =
        if v.getLsbD 2 then (if v.getLsbD 1 then dbgHalted s.dbgsr || dbgDe s.dbgsr else false)
        else dbgHalted s.dbgsr)) ∧
    ∀ r' : Csfr, r' ≠ r → csfrRead (csfrWrite s r v) r' = csfrRead s r'

/-- ENABLE and DISABLE write ICR.IE and are PRIV in User-0 mode; NOP, ISYNC and DSYNC only move on, and so does DEBUG where
its event has no action (43 R495 to R498, R502, R504; log 57 for ISYNC and DSYNC). -/
def Obligations.InterruptEnableAndSequencing : Prop :=
  ∀ (len : Len) (s : State),
    let on := { s with pc := s.pc + lenBytes len, completed := true }
    (s.psw.extractLsb' 10 2 = 0 → exec (.enable len) s = .next (enterTrap 1 1 s.pc s) ∧
      exec (.disable len) s = .next (enterTrap 1 1 s.pc s)) ∧
    (s.psw.extractLsb' 10 2 ≠ 0 → exec (.enable len) s = .next { on with icr := s.icr ||| 0x100 } ∧
      exec (.disable len) s = .next { on with icr := s.icr &&& 0xFFFFFEFF }) ∧
    exec (.nop len) s = .next on ∧ exec (.isync len) s = .next on ∧ exec (.dsync len) s = .next on ∧
    (EventOff s (swEvent s) → exec (.debug len) s = .next on)

/-- What DEBUG does with the CDC on, for the implemented actions of SWEVT that leave the program's registers alone: DBGSR
records the event (`EventRecorded`; PEVT set by a breakpoint interrupt alone is D37, log 61); EVTA 1 goes on, EVTA 2 halts,
EVTA 4 + k requests service on CPU_SBSRCk, the instruction completing first (with BBM = 1 too: D35, log 61); with BBM = 1 a
halt comes before the instruction, with BBM = 0 after it (61 R734, R737, R740 to R744, R750). EVTA 3 is in
`BreakpointTrapAndReturn`. -/
def Obligations.DebugInstruction : Prop :=
  ∀ (len : Len) (s : State), dbgDe s.dbgsr = true →
    let act := evtEvta s.swevt
    let before := evtBbm s.swevt = true
    let next := s.pc + lenBytes len
    ∃ w : Word, EventRecorded s.dbgsr w s.swevt 2 ∧
      (act = 1 → exec (.debug len) s = .next
        { s with dbgsr := w, breakOuts := s.breakOuts + 1, pc := next, completed := true }) ∧
      (act = 2 → exec (.debug len) s = .next
        { s with dbgsr := w ||| 2, breakOuts := s.breakOuts + 1, pc := if before then s.pc else next,
                 completed := decide (¬ before) }) ∧
      (∀ (k : Nat) (n : Src), act.toNat = 4 + k → getNode s (4 + k) = some n →
        exec (.debug len) s = .next { setNode s (4 + k) { n with srr := true } with
          dbgsr := w, breakOuts := s.breakOuts + 1, pc := next, completed := true })

/-- The debug events that are not DEBUG's, with the CDC on and an implemented action. A debug event either is taken
(`EventTaken`: DBGSR, Break-Out, and its action) or, for a breakpoint trap whose area at DCX is not memory, is the stop of
log 40 (61 R740 to R750). MFCR and MTCR of an offset that is no debug register raise CREVT: with BBM = 1 before the
instruction, which does not run where the action halts or traps and else runs on the state the event left, PRIV included; with
BBM = 0 after it where it completes, and a PRIV raises none (61 R733, R737, R742). Break-In raises EXEVT at the boundary
where it is asserted (U22, log 61); a halt or a trap ends the step, another action lets the boundary go on (61 R732, 60
R721). -/
def Obligations.OtherDebugEvents : Prop :=
  (∀ (e : DebugEvent) (s : State), evtEnabled s e.reg = true →
    (∀ t, debugEvent e s = .ok t → EventTaken e s t) ∧
    (∀ stop, debugEvent e s = .error stop → stop = .fault .debugAreaUndefined ∧ evtEvta e.reg = 3 ∧
      ¬ AllMemory s (addrs s.dcx 16)) ∧
    (evtEvta e.reg = 3 → ¬ AllMemory s (addrs s.dcx 16) → debugEvent e s = .error (.fault .debugAreaUndefined))) ∧
  (∀ (i : Instr) (len : Len) (c : DReg) (off : BitVec 16) (s : State), i = .mfcr len c off ∨ i = .mtcr len off c →
    dbgDe s.dbgsr = true → evtEnabled s s.crevt = true → (∀ r, csfrOf s.platform off = some r → r.isDebug = false) →
    let e : DebugEvent := { reg := s.crevt, code := 1 }
    let halts := evtEvta s.crevt = 2 ∨ evtEvta s.crevt = 3
    let effect := fun (u v : State) => match i with
      | .mfcr _ _ _ => v = { u with d := u.d.set c (mfcrValue u off), pc := u.pc + lenBytes len, freeCount := v.freeCount }
      | _ => isSupervisor u = true ∧ mmuSwitchBad u off (u.dr c) = false ∧
          v = { mtcrEffect u off (u.dr c) with pc := u.pc + lenBytes len }
    let refused := isSupervisor s = false ∧ i = .mtcr len off c
    (evtBbm s.crevt = true → ∀ stop, debugEvent e s = .error stop → exec i s = .fault .debugAreaUndefined) ∧
    (evtBbm s.crevt = true → ∀ t, debugEvent e s = .ok t →
      (halts → exec i s = .next { t with completed := false }) ∧
      (¬ halts → refused → exec i s = .next (enterTrap 1 1 s.pc t)) ∧
      (¬ halts → ¬ refused → (i = .mtcr len off c → mmuSwitchBad s off (s.dr c) = false) →
        ∃ v, effect t v ∧ exec i s = .next { v with completed := true })) ∧
    (evtBbm s.crevt = false → (refused → exec i s = .next (enterTrap 1 1 s.pc s)) ∧
      (¬ refused → (i = .mtcr len off c → mmuSwitchBad s off (s.dr c) = false) → ∃ v, effect s v ∧
        ∀ t, debugEvent e v = .ok t → exec i s = .next { t with completed := true }))) ∧
  (∀ s t : State, eventsNow s = [.breakIn] → dbgHalted s.dbgsr = false → dbgDe s.dbgsr = true →
    evtEnabled s s.exevt = true → debugEvent { reg := s.exevt, code := 0 } s.atBoundary = .ok t →
    (evtEvta s.exevt = 2 ∨ evtEvta s.exevt = 3 → step s = .next t) ∧
    (evtEvta s.exevt ≠ 2 → evtEvta s.exevt ≠ 3 →
      (s.nmiPending = true → step s = .next (enterTrap 7 0 s.pc { t with nmiPending := false })) ∧
      (s.nmiPending = false → s.daePending = false → s.fcdPending = false → interruptReady s.atBoundary = false →
        ∀ (i : Instr) (bs rest : List Byte), fetch (spendAsi t) = .ok bs → decode bs = .ok (i, rest) →
          NoTrigger (spendAsi t) i → step s = exec i (spendAsi t))))

/-- Trigger events. TRnEVT can raise one where it is there, its protection set is (log 37), the CDC is on, its ASI is off or
matches, and its action is implemented: before the instruction with BBM = 1 and a condition that holds without the data
accesses, after it with any condition that does not come before it (61 R735, R736; with no MMU the ASI it matches is open, log
41); a number from 4 up has no range and raises none, and a range that only data or only code has gives that side's signals
(log 56). That a trigger is armed whatever SYSCON.PROTEN is is a choice, which 61 R735 and 21 R211 mark (D32, log 61). The
lowest number acts, and an event of the instruction itself keeps them out on its side (61 R738, log 56). A halt or a trap
before the instruction keeps it from running; an event after it comes only where it completed (61 R737). -/
def Obligations.TriggerEvents : Prop :=
  (∀ (s : State) (n : Fin 8) (pc : Word) (acc : List TriggerAccess),
    let w := s.trEvt[n]
    let armed := n.val < s.platform.nTriggers ∧ (pswPrs s.psw).toNat < s.platform.nProtSets ∧ dbgDe s.dbgsr = true ∧
      (w.getLsbD 15 = true → w.extractLsb' 16 5 = triggerAsi s n) ∧ evtEnabled s w = true
    (mmuNone s.mmuCon = false → triggerAsi s n = s.mmuAsi.extractLsb' 0 5) ∧
    (4 ≤ n.val → trigAfter s n pc acc = false ∧ trigBefore s n pc = false) ∧
    ∀ k : Fin 4, k.val = n.val →
      (trigBefore s n pc = true ↔ armed ∧ w.getLsbD 3 = true ∧ TriggerCondition s k w pc []) ∧
      (trigAfter s n pc acc = true ↔ armed ∧ TriggerCondition s k w pc acc ∧ trigBefore s n pc = false)) ∧
  (∀ (s : State) (i : Instr) (bs rest : List Byte) (n : Fin 8), s.Quiet → fetch s.atInstruction = .ok bs →
    decode bs = .ok (i, rest) →
    let b := s.atInstruction
    let e : DebugEvent := { reg := s.trEvt[n], code := 16 + BitVec.ofNat 5 n.val }
    let halts := evtEvta s.trEvt[n] = 2 ∨ evtEvta s.trEvt[n] = 3
    (ownEventDue b (some i) true = false → trigBefore b n b.pc = true → (∀ k, k < n → trigBefore b k b.pc = false) →
      ∀ t, debugEvent e b = .ok t →
        (halts → step s = .next { t with completed := false }) ∧
        (¬ halts → (∀ k, trigAfter b k b.pc (triggerAccesses b i) = false) → step s = exec i t)) ∧
    ((ownEventDue b (some i) true = true ∨ ∀ k, trigBefore b k b.pc = false) →
      ownEventDue b (some i) false = false → trigAfter b n b.pc (triggerAccesses b i) = true →
      (∀ k, k < n → trigAfter b k b.pc (triggerAccesses b i) = false) → ∀ u, exec i b = .next u →
        (u.completed = false → step s = .next u) ∧
        (u.completed = true → ∀ t, debugEvent e u = .ok t → step s = .next t)))

/-- A breakpoint trap stores PCXI, PSW, A[10] and A[11] at DCX and enters the monitor at DMS, with the address of the
instruction in A[11] where BBM = 1 and that of the next one where BBM = 0; RFM right after it gives them back and goes on at
that address, ICR.IE staying 0 (43 R503, 61 R737, R748; the RFM at its PRIV and its no-operation are in `MonitorReturn`). -/
def Obligations.BreakpointTrapAndReturn : Prop :=
  ∀ (len len' : Len) (s : State), s.Inv → dbgDe s.dbgsr = true → evtEvta s.swevt = 3 →
    AllMemory s (addrs s.dcx 16) →
    let ra := if evtBbm s.swevt then s.pc else s.pc + lenBytes len
    ∃ u v, exec (.debug len) s = .next u ∧
      u.pc = s.dms ∧ u.ar 11 = ra ∧ pswIo u.psw = 2 ∧ pswPrs u.psw = 0 ∧ pswGw u.psw = false ∧ pswIs u.psw = true ∧
      u.psw.extractLsb' 0 8 = s.psw.extractLsb' 0 8 ∧ icrIe u.icr = false ∧ u.pcxi = s.pcxi ∧ u.ar 10 = s.ar 10 ∧
      u.memWord s.dcx = s.pcxi ∧ u.memWord (s.dcx + 4) = s.psw ∧ u.memWord (s.dcx + 8) = s.ar 10 ∧
      u.memWord (s.dcx + 12) = s.ar 11 ∧ (∀ pa, pa ∉ addrs s.dcx 16 → u.memByte pa = s.memByte pa) ∧
      EventRecorded s.dbgsr u.dbgsr s.swevt 2 ∧
      exec (.rfm len') u = .next v ∧ v.mem = u.mem ∧
      { v with mem := s.mem, dbgsr := s.dbgsr, breakOuts := s.breakOuts, completed := s.completed } =
        { s with icr := s.icr &&& 0xFFFFFEFF, pc := ra }

/-- RFM: PRIV outside Supervisor mode, no operation with the CDC off, DSE where the bus reports an error on the debug context
area, else the four words back, the reserved bits of PSW and PCXI as 0 (D21, log 10), and the pc from A[11] as it was (43
R503, 60 R701). That PRIV comes before the no-operation is the order 43 R503 itself writes. R503 speaks of four words of RAM:
that RFM reads whatever stands at DCX, a device or the CSFR window too, as the last two clauses have it, is the model's choice
(log 40). -/
def Obligations.MonitorReturn : Prop :=
  ∀ (len : Len) (s : State),
    (isSupervisor s = false → exec (.rfm len) s = .next (enterTrap 1 1 s.pc s)) ∧
    (isSupervisor s = true → dbgDe s.dbgsr = false →
      exec (.rfm len) s = .next { s with pc := s.pc + lenBytes len, completed := true }) ∧
    (isSupervisor s = true → dbgDe s.dbgsr = true → (∃ pa ∈ addrs s.dcx 16, busError s pa = true) →
      exec (.rfm len) s = .next (enterTrap 4 2 s.pc s)) ∧
    (isSupervisor s = true → dbgDe s.dbgsr = true → (∀ pa ∈ addrs s.dcx 16, busError s pa = false) →
      let rd := physRead s (addrs s.dcx 16)
      exec (.rfm len) s = .next { rd.2 with
        pcxi := wordAt rd.1 0 &&& 0xFFCFFFFF, psw := wordAt rd.1 1 &&& 0xFF003FFF,
        a := (s.a.set 10 (wordAt rd.1 2)).set 11 (wordAt rd.1 3), pc := s.ar 11 &&& 0xFFFFFFFE, completed := true })

/-! ### The memory management unit -/

/-- The traps of the six MMU instructions: an odd pair is OPD (D12, log 19), no MMU is UOPC, not Supervisor is PRIV (44 R530,
60 R691). -/
def Obligations.MmuInstructionTraps : Prop :=
  ∀ (len : Len) (a : DReg) (s : State),
    let five : List Instr := [.tlbdemap len a, .tlbflushA len, .tlbflushB len, .tlbprobeA len a, .tlbprobeI len a]
    (a.val % 2 = 1 → exec (.tlbmap len a) s = .next (enterTrap 2 3 s.pc s)) ∧
    (mmuNone s.mmuCon = true → (∀ i ∈ five, exec i s = .next (enterTrap 2 2 s.pc s)) ∧
      (a.val % 2 = 0 → exec (.tlbmap len a) s = .next (enterTrap 2 2 s.pc s))) ∧
    (mmuNone s.mmuCon = false → isSupervisor s = false → (∀ i ∈ five, exec i s = .next (enterTrap 1 1 s.pc s)) ∧
      (a.val % 2 = 0 → exec (.tlbmap len a) s = .next (enterTrap 1 1 s.pc s)))

/-- A TLBMAP is undefined where its page meets the page of a valid TTE of its ASI or of a global one, or is global itself and
meets any; where no TLB has its page size; where its frame is peripheral space; or for an upper address or V = 0 (44 R531). A
defined one enters its mapping: every virtual address of the page translates to the page frame and the address's
offset with the attributes given, under the current ASI. One slot takes the new TTE; every other slot, whatever its ASI, keeps
its TTE or has it made invalid, so no other mapping comes to be and none is changed (D2). Only the TLBs, the pc and the model's
own choice of a slot change (44 R531, 21 R240, R241; reserved operand bits are ignored: D21, log 10; the slot is free: log 43).
Forward progress: the mapping of the TLBMAP before it, where it is still there, stays in its slot (44 R539, D2, log 43). An
undefined one leaves the TLBs open. -/
def Obligations.TlbMapInstalls : Prop :=
  ∀ (len : Len) (a : DReg) (s : State), s.Inv → a.val % 2 = 0 → mmuNone s.mmuCon = false → isSupervisor s = true →
    let lo := s.dr a
    let hi := s.dr (a + 1)
    let psz : BitVec 2 := hi.extractLsb' 24 2
    let bits := 10 + 2 * psz.toNat
    ∃ t, exec (.tlbmap len a) s = .next t ∧
      { t with tlbA := s.tlbA, tlbB := s.tlbB, recentMaps := s.recentMaps, freeCount := s.freeCount, pc := s.pc,
               completed := s.completed } = s ∧ t.pc = s.pc + lenBytes len ∧
      (undefinedMap s lo hi = true ↔
        (∃ e ∈ s.tlbA ++ s.tlbB, e.v = true ∧
          (e.asi = s.mmuAsi.extractLsb' 0 5 ∨ e.g = true ∨ hi.getLsbD 27 = true) ∧
          let larger := max bits (10 + 2 * e.psz.toNat)
          e.vpn.toNat * 2 ^ 10 / 2 ^ larger = lo.toNat / 2 ^ larger) ∨
        (psz ≠ mmuSza s.mmuCon ∧ psz ≠ mmuSzb s.mmuCon) ∨
        attrOf s (BitVec.ofNat 32 ((hi.extractLsb' 0 22).toNat * 2 ^ 10 / 2 ^ bits * 2 ^ bits)) = .peripheral ∨
        lo.getLsbD 31 = true ∨ hi.getLsbD 31 = false) ∧
      (undefinedMap s lo hi = false →
        (∀ va : Word, va.toNat / 2 ^ bits = lo.toNat / 2 ^ bits → ∃ e, lookupTte t va = some e ∧
          e.xe = hi.getLsbD 30 ∧ e.we = hi.getLsbD 29 ∧ e.re = hi.getLsbD 28 ∧ e.g = hi.getLsbD 27 ∧ e.c = hi.getLsbD 26 ∧
          (e.translate va).toNat =
            ((hi.extractLsb' 0 22).toNat * 2 ^ 10 / 2 ^ bits) * 2 ^ bits + va.toNat % 2 ^ bits) ∧
        (∀ (va : Word) (e : Tte), va.toNat / 2 ^ bits ≠ lo.toNat / 2 ^ bits → e ∉ s.tlbA ++ s.tlbB →
          lookupTte t va ≠ some e) ∧
        (∃ p, t.recentMaps.head? = some p ∧ slotTte t p = lookupTte t lo ∧
          slotTte t p = some
            { v := true, asi := s.mmuAsi.extractLsb' 0 5, vpn := vpnOf lo psz, ppn := vpnOf (hi.extractLsb' 0 22 ++ 0#10) psz,
              xe := hi.getLsbD 30, we := hi.getLsbD 29, re := hi.getLsbD 28, g := hi.getLsbD 27, c := hi.getLsbD 26,
              psz := psz } ∧
          ∀ q, q ≠ p → slotTte t q = slotTte s q ∨
            ∃ e, slotTte s q = some e ∧ slotTte t q = some { e with v := false }) ∧
        (∀ p e, 3 ≤ s.platform.tlbTsz → s.recentMaps.head? = some p → slotTte s p = some e → e.v = true →
          slotTte t p = some e))

/-- TLBDEMAP clears V of each TTE that translates its address under the current ASI, or globally, and leaves every other slot
of both TLBs, of every ASI, as it is, so that no translation of the address is left; TLBFLUSH.A and TLBFLUSH.B clear V of every
slot of one TLB, its other fields as they were, and leave the other TLB; nothing else but the pc changes (44 R533, R534). -/
def Obligations.TlbInvalidation : Prop :=
  ∀ (len : Len) (a : DReg) (s : State), mmuNone s.mmuCon = false → isSupervisor s = true →
    (∃ t, exec (.tlbdemap len a) s = .next t ∧ lookupTte t (s.dr a) = none ∧
      (∀ va e, lookupTte s va = some e → e.hits (asiOf s) (s.dr a) = false → lookupTte t va = some e) ∧
      (∀ p : Bool × Nat, slotTte t p =
        (slotTte s p).map fun e => if e.hits (asiOf s) (s.dr a) then { e with v := false } else e) ∧
      { t with tlbA := s.tlbA, tlbB := s.tlbB } = { s with pc := s.pc + lenBytes len, completed := true }) ∧
    (∃ l, exec (.tlbflushA len) s = .next { s with tlbA := l, pc := s.pc + lenBytes len, completed := true } ∧
      ∀ k : Nat, l[k]? = (s.tlbA[k]?).map fun e => { e with v := false }) ∧
    (∃ l, exec (.tlbflushB len) s = .next { s with tlbB := l, pc := s.pc + lenBytes len, completed := true } ∧
      ∀ k : Nat, l[k]? = (s.tlbB[k]?).map fun e => { e with v := false })

/-- TLBPROBE.I of the index of a valid TTE, and TLBPROBE.A of an address that a TTE translates, put the TTE's ASI, VPN, PPN,
attributes and page size and its index into MMU_TVA, MMU_TPA and MMU_TPX; a probe of an invalid TTE or of none leaves MMU_TPA.V
= 0 (44 R535 to R537; log 42 for the open fields of a miss, log 43 for several TTEs that match). Nothing
else but the pc changes. -/
def Obligations.TlbProbes : Prop :=
  ∀ (len : Len) (a : DReg) (s : State), mmuNone s.mmuCon = false → isSupervisor s = true →
    let i := (s.dr a).toNat % 256
    let there := fun (i : Nat) => if i < 128 then s.tlbA[i]? else s.tlbB[i - 128]?
    let reports := fun (t : State) (e : Tte) =>
      t.mmuTva.extractLsb' 24 5 = e.asi ∧ t.mmuTva.extractLsb' 0 22 = vpnOf (e.vpn ++ 0#10) e.psz ∧
      t.mmuTpa.getLsbD 31 = true ∧ t.mmuTpa.getLsbD 30 = e.xe ∧ t.mmuTpa.getLsbD 29 = e.we ∧
      t.mmuTpa.getLsbD 28 = e.re ∧ t.mmuTpa.getLsbD 27 = e.g ∧ t.mmuTpa.getLsbD 26 = e.c ∧
      t.mmuTpa.extractLsb' 24 2 = e.psz ∧ t.mmuTpa.extractLsb' 0 22 = vpnOf (e.ppn ++ 0#10) e.psz
    let only := fun (t : State) => { t with mmuTva := s.mmuTva, mmuTpa := s.mmuTpa, mmuTpx := s.mmuTpx } =
      { s with freeCount := t.freeCount, pc := s.pc + lenBytes len, completed := true }
    (∃ t, exec (.tlbprobeI len a) s = .next t ∧ only t ∧
      (∀ e, there i = some e → e.v = true → reports t e ∧ t.mmuTpx.toNat = i) ∧
      ((∀ e, there i = some e → e.v = false) → t.mmuTpa.getLsbD 31 = false)) ∧
    (∃ t, exec (.tlbprobeA len a) s = .next t ∧ only t ∧
      (lookupTte s (s.dr a) = none → t.mmuTpa.getLsbD 31 = false) ∧
      (s.Inv → ∀ e, lookupTte s (s.dr a) = some e → reports t e ∧ there t.mmuTpx.toNat = some e))

/-! ### Floating point -/

/-- Every floating-point instruction writes its result to its destination, keeps the exception flags sticky and writes FS;
UPDFL writes the PSW status bits its mask selects; with no FPU each is UOPC (45 R571, R578, R580; the results are
`fpComputed`'s, UPDFL's operand format is log 51's). -/
def Obligations.FloatingPointCompletes : Prop :=
  (∀ (i : Instr) (s : State) (c : Fin 16) (r : FpResult), fpComputed s i = some (c, r) →
    (s.platform.hasFpu = true → ∃ p, exec i s = .next { s with
        d := s.d.set c r.bits, psw := p, pc := s.pc + lenBytes i.len, completed := true } ∧
      FpFlagsSet s.psw p r.flags) ∧
    (s.platform.hasFpu = false → exec i s = .next (enterTrap 2 2 s.pc s))) ∧
  (∀ (len : Len) (a : DReg) (s : State),
    (s.platform.hasFpu = true → ∃ p : Word, exec (.updfl len a) s = .next { s with
        psw := p, pc := s.pc + lenBytes len, completed := true } ∧
      ∀ j, p.getLsbD j = if 24 ≤ j ∧ j < 32 ∧ (s.dr a).getLsbD (j - 16) = true then (s.dr a).getLsbD (j - 24)
        else s.psw.getLsbD j) ∧
    (s.platform.hasFpu = false → exec (.updfl len a) s = .next (enterTrap 2 2 s.pc s)))

/-- Any floating-point operation but UPDFL asserts at most one of FI, FV, FZ and FU, FX only without FI and FZ, and FX with
FV or FU; FS tells in PSW whether it asserted any (45 R572). -/
def Obligations.ExceptionFlagsAreConsistent : Prop :=
  ∀ (i : Instr) (s : State) (c : Fin 16) (r : FpResult), fpComputed s i = some (c, r) →
    r.flags.Consistent ∧
    (s.platform.hasFpu = true → ∃ t, exec i s = .next t ∧ t.dr c = r.bits ∧
      t.psw.getLsbD 31 = (r.flags.fi || r.flags.fv || r.flags.fz || r.flags.fu || r.flags.fx))

/-- Any NaN operand of an arithmetic instruction gives the quiet NaN 7FC00000H, with FI exactly when a NaN operand is
signalling, and no other flag (45 R563). -/
def Obligations.NansGiveTheQuietNan : Prop :=
  ∀ (rm : BitVec 2) (sub : Bool) (d a b : Word),
    let quiet := fun (ops : List Word) (r : FpResult) => ops.any fpIsNan = true →
      r = { bits := 0x7FC00000, flags := { fi := ops.any fpIsSnan, fv := false, fz := false, fu := false, fx := false } }
    quiet [d, a] (fpAdd rm d a) ∧ quiet [d, a] (fpAdd rm d (fpNeg a)) ∧ quiet [a, b] (fpMul rm a b) ∧
    quiet [a, b] (fpDiv rm a b) ∧ quiet [d, a, b] (fpMadd sub rm d a b) ∧ quiet [a] (fpQseed a)

/-- CMP.F compares the represented values of two numbers, infinities and denormals with theirs: bit 0 is less, bit 1 equal,
bit 2 greater, exactly one of them without a NaN; bit 3 is unordered, exactly with a NaN and then alone; bits 4 and 5 say that
an operand is denormal, the others are 0; FI is asserted exactly for a signalling NaN, and nothing else. The two zeros are
equal, and less and equal are transitive (45 R561, R596; the bit positions are the spec's from outside the source, log 51). -/
def Obligations.CompareOrdersTheValues : Prop :=
  (∀ a b : Word,
    let r := (fpCmp a b).bits
    let nan := fpIsNan a = true ∨ fpIsNan b = true
    (r.getLsbD 0 = true ↔ ¬ nan ∧ FpLess a b) ∧
    (r.getLsbD 1 = true ↔ ¬ nan ∧ (a = b ∨ (FpFinite a ∧ FpFinite b ∧ fpVal a = fpVal b))) ∧
    (r.getLsbD 2 = true ↔ ¬ nan ∧ FpLess b a) ∧ (r.getLsbD 3 = true ↔ nan) ∧
    ((r.getLsbD 0).toNat + (r.getLsbD 1).toNat + (r.getLsbD 2).toNat + (r.getLsbD 3).toNat = 1) ∧
    (r.getLsbD 4 = true ↔ fpExp a = 0 ∧ fpFrac a ≠ 0) ∧ (r.getLsbD 5 = true ↔ fpExp b = 0 ∧ fpFrac b ≠ 0) ∧
    r.extractLsb' 6 26 = 0 ∧
    (fpCmp a b).flags = { fi := fpIsSnan a || fpIsSnan b, fv := false, fz := false, fu := false, fx := false } ∧
    (fpIsZero a = true → fpIsZero b = true → r.getLsbD 1 = true)) ∧
  (∀ (a b c : Word) (k : Fin 2), (fpCmp a b).bits.getLsbD k.val = true → (fpCmp b c).bits.getLsbD k.val = true →
    (fpCmp a c).bits.getLsbD k.val = true)

/-- The rounding of a result (45 R564 to R566). A representable number is its own rounded value, without a flag. In every mode
a result that neither overflows nor underflows is less than one unit in its last place from the exact value `num / den`, on
the side the mode asks for, and in round to nearest at most half a unit, a tie going to the even word; FX tells whether it
differs. FV is set exactly where the value rounded with an unbounded exponent exceeds MAXF, and gives infinity or MAXF by the
mode; FU exactly below 2^-126, and gives MINN where the denormal grid rounds up to it, else zero; FX comes with both. The
value of a word is in units of 2^-149. -/
def Obligations.RoundingIsCorrect : Prop :=
  (∀ (rm : BitVec 2) (w : Word), 1 ≤ (fpExp w).toNat → (fpExp w).toNat ≤ 254 →
    fpRound rm (fpSign w) (fpVal w).natAbs 1 = fpExact w) ∧
  (∀ (rm : BitVec 2) (neg : Bool) (num den : Nat), 0 < num → 0 < den →
    let r := fpRound rm neg num den
    let got : Nat := (fpVal r.bits).natAbs * den
    let ulp : Nat := 2 ^ ((fpExp r.bits).toNat - 1) * den
    let away := (rm = 1 ∧ neg = false) ∨ (rm = 2 ∧ neg = true)
    let toward := (rm = 1 ∧ neg = true) ∨ (rm = 2 ∧ neg = false) ∨ rm = 3
    let word := fun (magnitude : BitVec 31) => BitVec.ofBool neg ++ magnitude
    (r.flags.fv = false → r.flags.fu = false →
      fpSign r.bits = neg ∧ num < got + ulp ∧ got < num + ulp ∧ (r.flags.fx = true ↔ got ≠ num) ∧
      r.flags.fi = false ∧ r.flags.fz = false ∧
      (rm = 0 → 2 * num ≤ 2 * got + ulp ∧ 2 * got ≤ 2 * num + ulp ∧
        (2 * num = 2 * got + ulp ∨ 2 * got = 2 * num + ulp → r.bits.getLsbD 0 = false)) ∧
      (away → num ≤ got) ∧ (toward → got ≤ num)) ∧
    (r.flags.fv = true ↔ (rm = 0 ∧ (2 ^ 25 - 1) * 2 ^ 252 * den ≤ num) ∨
      (away ∧ (2 ^ 24 - 1) * 2 ^ 253 * den < num) ∨ (toward ∧ 2 ^ 277 * den ≤ num)) ∧
    (r.flags.fv = true → r.flags = { fi := false, fv := true, fz := false, fu := false, fx := true } ∧
      (rm = 0 ∨ away → r.bits = word 0x7F800000) ∧ (toward → r.bits = word 0x7F7FFFFF)) ∧
    (r.flags.fu = true ↔ num < 2 ^ 23 * den) ∧
    (r.flags.fu = true → r.flags = { fi := false, fv := false, fz := false, fu := true, fx := true } ∧
      let up := (rm = 0 ∧ (2 ^ 24 - 1) * den ≤ 2 * num) ∨ (away ∧ (2 ^ 23 - 1) * den < num)
      (up → r.bits = word 0x00800000) ∧ (¬ up → r.bits = word 0)))

/-- The arithmetic instructions on operands that are no NaN, a denormal standing for the zero of its sign: on finite operands
the result is the exact sum, difference, product, quotient or fused product and sum, rounded once, in units of 2^-149; an exact
zero has the sign of R580; the infinity, zero and invalid cases are those of the rules' tables. SUB.F is the addition of the
number with its sign inverted, MSUB.F has the product's sign inverted. QSEED.F gives an infinity for a zero, the invalid NaN
for a negative number, zero for infinity, and some positive normal number else (45 R562, R575, R580, R590 to R595; operand
roles, zero signs and the last cases of QSEED.F are log 51's). -/
def Obligations.ArithmeticResults : Prop :=
  ∀ (rm : BitVec 2) (d a b : Word), fpIsNan d = false → fpIsNan a = false → fpIsNan b = false →
    let zero := fun (w : Word) => fpExp w = 0
    let inf := fun (w : Word) => fpIsInf w = true
    let zeroOf := fun (neg : Bool) => fpExact (BitVec.ofBool neg ++ 0#31)
    let infOf := fun (neg : Bool) => fpExact (BitVec.ofBool neg ++ 0x7F800000#31)
    let rounded := fun (x : Int) (den : Nat) (zeroNeg : Bool) (r : FpResult) =>
      (x ≠ 0 → r = fpRound rm (decide (x < 0)) x.natAbs den) ∧ (x = 0 → r = zeroOf zeroNeg)
    let sumSign := fun (x y : Bool) => if x = y then x else decide (rm = 2)
    let sum := fun (y : Word) (ySign : Bool) (yVal : Int) (r : FpResult) =>
      (inf d → inf y → fpSign d ≠ ySign → r = fpInvalid 0x7FC00001) ∧
      (inf d → (inf y → fpSign d = ySign) → r = infOf (fpSign d)) ∧
      (FpFinite d → inf y → r = infOf ySign) ∧
      (FpFinite d → FpFinite y → rounded (fpOperand d + yVal) 1 (sumSign (fpSign d) ySign) r)
    let sign := fpSign a ^^ fpSign b
    sum a (fpSign a) (fpOperand a) (fpAdd rm d a) ∧
    sum a (!fpSign a) (-fpOperand a) (fpAdd rm d (fpNeg a)) ∧
    ((zero a ∧ inf b) ∨ (inf a ∧ zero b) → fpMul rm a b = fpInvalid 0x7FC00002) ∧
    ((inf a ∧ ¬ zero b) ∨ (¬ zero a ∧ inf b) → fpMul rm a b = infOf sign) ∧
    (FpFinite a → FpFinite b → rounded (fpOperand a * fpOperand b) (2 ^ 149) sign (fpMul rm a b)) ∧
    ((zero a ∧ zero b) ∨ (inf a ∧ inf b) → fpDiv rm a b = fpInvalid 0x7FC00008) ∧
    (inf a → FpFinite b → fpDiv rm a b = infOf sign) ∧
    (FpFinite a → inf b → fpDiv rm a b = zeroOf sign) ∧
    (FpFinite a → ¬ zero a → zero b → fpDiv rm a b =
      { bits := (infOf sign).bits, flags := { fi := false, fv := false, fz := true, fu := false, fx := false } }) ∧
    (zero a → FpFinite b → ¬ zero b → fpDiv rm a b = zeroOf sign) ∧
    (FpFinite a → FpFinite b → ¬ zero a → ¬ zero b →
      fpDiv rm a b = fpRound rm sign ((fpVal a).natAbs * 2 ^ 149) (fpVal b).natAbs) ∧
    (∀ sub : Bool,
      let r := fpMadd sub rm d a b
      let pSign := sign ^^ sub
      let product := if sub then -(fpOperand a * fpOperand b) else fpOperand a * fpOperand b
      ((zero a ∧ inf b) ∨ (inf a ∧ zero b) → r = fpInvalid 0x7FC00002) ∧
      ((inf a ∧ ¬ zero b) ∨ (¬ zero a ∧ inf b) →
        (inf d → fpSign d ≠ pSign → r = fpInvalid 0x7FC00001) ∧ ((inf d → fpSign d = pSign) → r = infOf pSign)) ∧
      (FpFinite a → FpFinite b → inf d → r = fpExact d) ∧
      (FpFinite a → FpFinite b → FpFinite d →
        rounded (fpOperand d * 2 ^ 149 + product) (2 ^ 149) (sumSign (fpSign d) pSign) r)) ∧
    (zero a → fpQseed a = infOf (fpSign a)) ∧
    (¬ zero a → fpSign a = true → fpQseed a = fpInvalid 0x7FC00004) ∧
    (inf a → fpSign a = false → fpQseed a = zeroOf false) ∧
    (FpFinite a → ¬ zero a → fpSign a = false → ∃ w, fpQseed a = fpExact w ∧ fpSign w = false ∧
      1 ≤ (fpExp w).toNat ∧ (fpExp w).toNat ≤ 254)

/-- The conversions. FTOI, FTOU and FTOQ31 round the operand, scaled by 2^(31 - k) for FTOQ31, to an integer in the rounding
mode: in range it is the result and FX tells whether it differs; out of range FI and the nearest end of the range; an infinity
likewise, a NaN FI and 0. ITOF and Q31TOF round the signed integer, scaled by 2^(k - 31) for Q31TOF, and give +0 for 0; ITOF
neither overflows nor underflows. k is D[b][8:0] in two's complement (45 R597 to R600; saturation, the NaN's 0 and k are log
51's, that Q31TOF can overflow log 52's). -/
def Obligations.ConversionResults : Prop :=
  ∀ (s : State) (len : Len) (c a b : DReg),
    let rm : BitVec 2 := s.psw.extractLsb' 24 2
    let x := s.dr a
    let k : Int := ((s.dr b).extractLsb' 0 9).toInt
    let toInt := fun (i : Instr) (shift lo hi : Int) => ∃ r, fpComputed s i = some (c, r) ∧
      let num : Int := fpOperand x * 2 ^ (shift - 149).toNat
      let den : Nat := 2 ^ (149 - shift).toNat
      (fpIsNan x = true → r = fpInvalid 0) ∧
      (fpIsInf x = true → r = fpInvalid (BitVec.ofInt 32 (if fpSign x then lo else hi))) ∧
      (FpFinite x → ∃ n, RoundedInt rm num den n ∧
        (n < lo → r = fpInvalid (BitVec.ofInt 32 lo)) ∧ (hi < n → r = fpInvalid (BitVec.ofInt 32 hi)) ∧
        (lo ≤ n → n ≤ hi → r =
        { bits := BitVec.ofInt 32 n,
          flags := { fi := false, fv := false, fz := false, fu := false, fx := decide (n * den ≠ num) } }))
    let ofInt := fun (i : Instr) (shift : Int) => ∃ r, fpComputed s i = some (c, r) ∧
      (x = 0 → r = fpExact 0) ∧
      (x ≠ 0 → r = fpRound rm x.msb (x.toInt.natAbs * 2 ^ (shift + 149).toNat) (2 ^ (-149 - shift).toNat)) ∧
      (shift = 0 → r.flags.fv = false ∧ r.flags.fu = false)
    toInt (.ftoi len c a) 0 (-(2 ^ 31)) (2 ^ 31 - 1) ∧ toInt (.ftou len c a) 0 0 (2 ^ 32 - 1) ∧
    toInt (.ftoq31 len c a b) (31 - k) (-(2 ^ 31)) (2 ^ 31 - 1) ∧
    ofInt (.itof len c a) 0 ∧ ofInt (.q31tof len c a b) (k - 31)

/-! ### The whole machine -/

/-- The protection 60 R631 speaks of, resting on MTCR being privileged (D23, log 21) and on PSW.IO = 11B passing as Supervisor
(D22, log 20): no instruction executed outside Supervisor mode changes SYSCON, the vector bases and ISP, LCX, the protection
sets, the MMU's control and its TLBs, or the debug event registers; a trap's entry does not either (60 R631). -/
def Obligations.UserModeCannotChangeTheSystem : Prop :=
  ∀ (i : Instr) (s t : State), isSupervisor s = false → exec i s = .next t → SameSystem s t

/-- Every stop of an instruction, of a fetch and of a step has the cause its reason names. The missing protection set:
PSW.PRS names no set there is, PROTEN = 1, and an access or a fetch reaches an address that the ranges are asked about (log
37). The peripheral page: a TTE translates a byte of an access, or a half-word of the instruction, into peripheral space (log
38). The switch of translation: an MTCR of MMU_CON under an address that is not identity mapped (log 39). The debug area: a
breakpoint trap of DEBUG, MFCR or MTCR, of Break-In or of a trigger whose area at DCX is not memory (log 40). The one refusal:
a byte of a load or store, or of a context area restored, loaded or stored, lies in the CSFR window (log 24). A step stops
only where its Break-In, its fetch, its instruction or a trigger around it does (60 R721). -/
def Obligations.StopsHaveTheirCause : Prop :=
  (∀ (i : Instr) (s : State),
    (exec i s = .fault .missingProtectionSet → sysProten s.syscon = true ∧ s.platform.nProtSets ≤ (pswPrs s.psw).toNat ∧
      ∃ x, dataAccess i = some x ∧ ∃ a ∈ modeHeads s x.mode x.kind.size, headChecked s a = true) ∧
    (exec i s = .fault .peripheralPage → ∃ x, dataAccess i = some x ∧ ∃ va ∈ modeBytes s x.mode x.kind.size,
      usesPte s va = true ∧ ∃ e, lookupTte s va = some e ∧ attrOf s (e.translate va) = .peripheral) ∧
    (exec i s = .fault .mmuSwitchUndefined → ∃ len a, i = .mtcr len 0x8000 a ∧ isSupervisor s = true ∧
      mmuV s.mmuCon = true ∧ (s.dr a).getLsbD 0 = false ∧ usesPte s s.pc = true ∧ physOf s s.pc ≠ some s.pc) ∧
    (exec i s = .fault .debugAreaUndefined → dbgDe s.dbgsr = true ∧ ¬ AllMemory s (addrs s.dcx 16) ∧
      ∃ e, ownEvent s i = some e ∧ evtEvta e.reg = 3) ∧
    (∀ r, exec i s = .refused r → r = .csfrAccess ∧
      ((∃ x, dataAccess i = some x ∧ ∃ pa ∈ accessAddrs s x.mode x.kind.size, inCsfrWindow s pa = true) ∨
      (∃ len, (i = .ret len ∨ i = .rfe len ∨ i = .rslcx len) ∧
        ∃ pa ∈ addrs (csaEa (ctxPtr s.pcxi)) 64, inCsfrWindow s pa = true) ∨
      (∃ len m, (i = .stlcx len m ∨ i = .stucx len m ∨ i = .ldlcx len m ∨ i = .lducx len m) ∧
        ∃ pa ∈ addrs (modeEa s (ctxMode m)) 64, inCsfrWindow s pa = true)))) ∧
  (∀ s : State,
    (∀ r, fetch s ≠ .error (.refuse r)) ∧
    (∀ f, fetch s = .error (.fault f) →
      (f = .missingProtectionSet ∧ sysProten s.syscon = true ∧ s.platform.nProtSets ≤ (pswPrs s.psw).toNat ∧
        headChecked s s.pc = true) ∨
      (f = .peripheralPage ∧ ∃ va, (va = s.pc ∨ va = s.pc + 2) ∧ usesPte s va = true ∧
        ∃ e, lookupTte s va = some e ∧ attrOf s (e.translate va) = .peripheral))) ∧
  (∀ s : State,
    let runs := fun (b c : State) => StartsInstruction s b ∧
      (c = b ∨ ∃ n, trigBefore b n b.pc = true ∧ debugEvent (trigEvent b n) b = .ok c)
    let executes := fun (b : State) (i : Instr) => ∃ bs, fetch b = .ok bs ∧ decodeFetched bs = .instr i
    (∀ f, step s = .fault f →
      (f = .debugAreaUndefined ∧ breakInDue s (sampled s) = true ∧ DebugAreaBad (exEvent (sampled s)) (sampled s)) ∨
      (∃ b, StartsInstruction s b ∧ fetch b = .error (.fault f)) ∨
      (∃ b c i, runs b c ∧ executes b i ∧ exec i c = .fault f) ∨
      (f = .debugAreaUndefined ∧ ∃ b n, StartsInstruction s b ∧ trigBefore b n b.pc = true ∧
        DebugAreaBad (trigEvent b n) b) ∨
      (f = .debugAreaUndefined ∧ ∃ b c u n, runs b c ∧ runFetched c (fetch b) = .next u ∧
        trigAfter b n b.pc (((fetchedInstr (fetch b)).map (triggerAccesses b)).getD []) = true ∧
        DebugAreaBad (trigEvent b n) u)) ∧
    (∀ r, step s = .refused r → ∃ b c i, runs b c ∧ executes b i ∧ exec i c = .refused r))

end
end

