-- ==== Sys2Proof/Laws/State.lean ====
section
/-!
SUPPORT. Sys2Proof/Laws/State.lean: one lemma per field per update of the state, each true by rfl.
-/
namespace Sys2Proof.Machine

/-! ### setD -/

section setD

variable (s : State) (r : Fin 16) (v : Word)

@[simp] theorem setD_d : (s.setD r v).d = s.d.set r v := rfl
@[simp] theorem setD_a : (s.setD r v).a = s.a := rfl
@[simp] theorem setD_pc : (s.setD r v).pc = s.pc := rfl
@[simp] theorem setD_psw : (s.setD r v).psw = s.psw := rfl
@[simp] theorem setD_pcxi : (s.setD r v).pcxi = s.pcxi := rfl
@[simp] theorem setD_fcx : (s.setD r v).fcx = s.fcx := rfl
@[simp] theorem setD_lcx : (s.setD r v).lcx = s.lcx := rfl
@[simp] theorem setD_isp : (s.setD r v).isp = s.isp := rfl
@[simp] theorem setD_icr : (s.setD r v).icr = s.icr := rfl
@[simp] theorem setD_biv : (s.setD r v).biv = s.biv := rfl
@[simp] theorem setD_btv : (s.setD r v).btv = s.btv := rfl
@[simp] theorem setD_syscon : (s.setD r v).syscon = s.syscon := rfl
@[simp] theorem setD_prot : (s.setD r v).prot = s.prot := rfl
@[simp] theorem setD_mmuCon : (s.setD r v).mmuCon = s.mmuCon := rfl
@[simp] theorem setD_mmuAsi : (s.setD r v).mmuAsi = s.mmuAsi := rfl
@[simp] theorem setD_mmuTva : (s.setD r v).mmuTva = s.mmuTva := rfl
@[simp] theorem setD_mmuTpa : (s.setD r v).mmuTpa = s.mmuTpa := rfl
@[simp] theorem setD_mmuTpx : (s.setD r v).mmuTpx = s.mmuTpx := rfl
@[simp] theorem setD_mmuTfa : (s.setD r v).mmuTfa = s.mmuTfa := rfl
@[simp] theorem setD_tlbA : (s.setD r v).tlbA = s.tlbA := rfl
@[simp] theorem setD_tlbB : (s.setD r v).tlbB = s.tlbB := rfl
@[simp] theorem setD_dbgsr : (s.setD r v).dbgsr = s.dbgsr := rfl
@[simp] theorem setD_exevt : (s.setD r v).exevt = s.exevt := rfl
@[simp] theorem setD_crevt : (s.setD r v).crevt = s.crevt := rfl
@[simp] theorem setD_swevt : (s.setD r v).swevt = s.swevt := rfl
@[simp] theorem setD_trEvt : (s.setD r v).trEvt = s.trEvt := rfl
@[simp] theorem setD_dms : (s.setD r v).dms = s.dms := rfl
@[simp] theorem setD_dcx : (s.setD r v).dcx = s.dcx := rfl
@[simp] theorem setD_cpuSrc : (s.setD r v).cpuSrc = s.cpuSrc := rfl
@[simp] theorem setD_sbSrc : (s.setD r v).sbSrc = s.sbSrc := rfl
@[simp] theorem setD_extraSrc : (s.setD r v).extraSrc = s.extraSrc := rfl
@[simp] theorem setD_endinit : (s.setD r v).endinit = s.endinit := rfl
@[simp] theorem setD_nmiPending : (s.setD r v).nmiPending = s.nmiPending := rfl
@[simp] theorem setD_daePending : (s.setD r v).daePending = s.daePending := rfl
@[simp] theorem setD_fcdPending : (s.setD r v).fcdPending = s.fcdPending := rfl
@[simp] theorem setD_mem : (s.setD r v).mem = s.mem := rfl
@[simp] theorem setD_platform : (s.setD r v).platform = s.platform := rfl
@[simp] theorem setD_inputs : (s.setD r v).inputs = s.inputs := rfl
@[simp] theorem setD_freeCount : (s.setD r v).freeCount = s.freeCount := rfl
@[simp] theorem setD_recentMaps : (s.setD r v).recentMaps = s.recentMaps := rfl
@[simp] theorem setD_breakOuts : (s.setD r v).breakOuts = s.breakOuts := rfl
@[simp] theorem setD_devices : (s.setD r v).devices = s.devices := rfl
@[simp] theorem setD_completed : (s.setD r v).completed = s.completed := rfl

end setD

/-! ### setA -/

section setA

variable (s : State) (r : Fin 16) (v : Word)

@[simp] theorem setA_d : (s.setA r v).d = s.d := rfl
@[simp] theorem setA_a : (s.setA r v).a = s.a.set r v := rfl
@[simp] theorem setA_pc : (s.setA r v).pc = s.pc := rfl
@[simp] theorem setA_psw : (s.setA r v).psw = s.psw := rfl
@[simp] theorem setA_pcxi : (s.setA r v).pcxi = s.pcxi := rfl
@[simp] theorem setA_fcx : (s.setA r v).fcx = s.fcx := rfl
@[simp] theorem setA_lcx : (s.setA r v).lcx = s.lcx := rfl
@[simp] theorem setA_isp : (s.setA r v).isp = s.isp := rfl
@[simp] theorem setA_icr : (s.setA r v).icr = s.icr := rfl
@[simp] theorem setA_biv : (s.setA r v).biv = s.biv := rfl
@[simp] theorem setA_btv : (s.setA r v).btv = s.btv := rfl
@[simp] theorem setA_syscon : (s.setA r v).syscon = s.syscon := rfl
@[simp] theorem setA_prot : (s.setA r v).prot = s.prot := rfl
@[simp] theorem setA_mmuCon : (s.setA r v).mmuCon = s.mmuCon := rfl
@[simp] theorem setA_mmuAsi : (s.setA r v).mmuAsi = s.mmuAsi := rfl
@[simp] theorem setA_mmuTva : (s.setA r v).mmuTva = s.mmuTva := rfl
@[simp] theorem setA_mmuTpa : (s.setA r v).mmuTpa = s.mmuTpa := rfl
@[simp] theorem setA_mmuTpx : (s.setA r v).mmuTpx = s.mmuTpx := rfl
@[simp] theorem setA_mmuTfa : (s.setA r v).mmuTfa = s.mmuTfa := rfl
@[simp] theorem setA_tlbA : (s.setA r v).tlbA = s.tlbA := rfl
@[simp] theorem setA_tlbB : (s.setA r v).tlbB = s.tlbB := rfl
@[simp] theorem setA_dbgsr : (s.setA r v).dbgsr = s.dbgsr := rfl
@[simp] theorem setA_exevt : (s.setA r v).exevt = s.exevt := rfl
@[simp] theorem setA_crevt : (s.setA r v).crevt = s.crevt := rfl
@[simp] theorem setA_swevt : (s.setA r v).swevt = s.swevt := rfl
@[simp] theorem setA_trEvt : (s.setA r v).trEvt = s.trEvt := rfl
@[simp] theorem setA_dms : (s.setA r v).dms = s.dms := rfl
@[simp] theorem setA_dcx : (s.setA r v).dcx = s.dcx := rfl
@[simp] theorem setA_cpuSrc : (s.setA r v).cpuSrc = s.cpuSrc := rfl
@[simp] theorem setA_sbSrc : (s.setA r v).sbSrc = s.sbSrc := rfl
@[simp] theorem setA_extraSrc : (s.setA r v).extraSrc = s.extraSrc := rfl
@[simp] theorem setA_endinit : (s.setA r v).endinit = s.endinit := rfl
@[simp] theorem setA_nmiPending : (s.setA r v).nmiPending = s.nmiPending := rfl
@[simp] theorem setA_daePending : (s.setA r v).daePending = s.daePending := rfl
@[simp] theorem setA_fcdPending : (s.setA r v).fcdPending = s.fcdPending := rfl
@[simp] theorem setA_mem : (s.setA r v).mem = s.mem := rfl
@[simp] theorem setA_platform : (s.setA r v).platform = s.platform := rfl
@[simp] theorem setA_inputs : (s.setA r v).inputs = s.inputs := rfl
@[simp] theorem setA_freeCount : (s.setA r v).freeCount = s.freeCount := rfl
@[simp] theorem setA_recentMaps : (s.setA r v).recentMaps = s.recentMaps := rfl
@[simp] theorem setA_breakOuts : (s.setA r v).breakOuts = s.breakOuts := rfl
@[simp] theorem setA_devices : (s.setA r v).devices = s.devices := rfl
@[simp] theorem setA_completed : (s.setA r v).completed = s.completed := rfl

end setA

/-! ### setMemByte -/

section setMemByte

variable (s : State) (x : Word) (b : Byte)

@[simp] theorem setMemByte_d : (s.setMemByte x b).d = s.d := rfl
@[simp] theorem setMemByte_a : (s.setMemByte x b).a = s.a := rfl
@[simp] theorem setMemByte_pc : (s.setMemByte x b).pc = s.pc := rfl
@[simp] theorem setMemByte_psw : (s.setMemByte x b).psw = s.psw := rfl
@[simp] theorem setMemByte_pcxi : (s.setMemByte x b).pcxi = s.pcxi := rfl
@[simp] theorem setMemByte_fcx : (s.setMemByte x b).fcx = s.fcx := rfl
@[simp] theorem setMemByte_lcx : (s.setMemByte x b).lcx = s.lcx := rfl
@[simp] theorem setMemByte_isp : (s.setMemByte x b).isp = s.isp := rfl
@[simp] theorem setMemByte_icr : (s.setMemByte x b).icr = s.icr := rfl
@[simp] theorem setMemByte_biv : (s.setMemByte x b).biv = s.biv := rfl
@[simp] theorem setMemByte_btv : (s.setMemByte x b).btv = s.btv := rfl
@[simp] theorem setMemByte_syscon : (s.setMemByte x b).syscon = s.syscon := rfl
@[simp] theorem setMemByte_prot : (s.setMemByte x b).prot = s.prot := rfl
@[simp] theorem setMemByte_mmuCon : (s.setMemByte x b).mmuCon = s.mmuCon := rfl
@[simp] theorem setMemByte_mmuAsi : (s.setMemByte x b).mmuAsi = s.mmuAsi := rfl
@[simp] theorem setMemByte_mmuTva : (s.setMemByte x b).mmuTva = s.mmuTva := rfl
@[simp] theorem setMemByte_mmuTpa : (s.setMemByte x b).mmuTpa = s.mmuTpa := rfl
@[simp] theorem setMemByte_mmuTpx : (s.setMemByte x b).mmuTpx = s.mmuTpx := rfl
@[simp] theorem setMemByte_mmuTfa : (s.setMemByte x b).mmuTfa = s.mmuTfa := rfl
@[simp] theorem setMemByte_tlbA : (s.setMemByte x b).tlbA = s.tlbA := rfl
@[simp] theorem setMemByte_tlbB : (s.setMemByte x b).tlbB = s.tlbB := rfl
@[simp] theorem setMemByte_dbgsr : (s.setMemByte x b).dbgsr = s.dbgsr := rfl
@[simp] theorem setMemByte_exevt : (s.setMemByte x b).exevt = s.exevt := rfl
@[simp] theorem setMemByte_crevt : (s.setMemByte x b).crevt = s.crevt := rfl
@[simp] theorem setMemByte_swevt : (s.setMemByte x b).swevt = s.swevt := rfl
@[simp] theorem setMemByte_trEvt : (s.setMemByte x b).trEvt = s.trEvt := rfl
@[simp] theorem setMemByte_dms : (s.setMemByte x b).dms = s.dms := rfl
@[simp] theorem setMemByte_dcx : (s.setMemByte x b).dcx = s.dcx := rfl
@[simp] theorem setMemByte_cpuSrc : (s.setMemByte x b).cpuSrc = s.cpuSrc := rfl
@[simp] theorem setMemByte_sbSrc : (s.setMemByte x b).sbSrc = s.sbSrc := rfl
@[simp] theorem setMemByte_extraSrc : (s.setMemByte x b).extraSrc = s.extraSrc := rfl
@[simp] theorem setMemByte_endinit : (s.setMemByte x b).endinit = s.endinit := rfl
@[simp] theorem setMemByte_nmiPending : (s.setMemByte x b).nmiPending = s.nmiPending := rfl
@[simp] theorem setMemByte_daePending : (s.setMemByte x b).daePending = s.daePending := rfl
@[simp] theorem setMemByte_fcdPending : (s.setMemByte x b).fcdPending = s.fcdPending := rfl
@[simp] theorem setMemByte_mem : (s.setMemByte x b).mem = Memory.set s.mem x.toNat b := rfl
@[simp] theorem setMemByte_platform : (s.setMemByte x b).platform = s.platform := rfl
@[simp] theorem setMemByte_inputs : (s.setMemByte x b).inputs = s.inputs := rfl
@[simp] theorem setMemByte_freeCount : (s.setMemByte x b).freeCount = s.freeCount := rfl
@[simp] theorem setMemByte_recentMaps : (s.setMemByte x b).recentMaps = s.recentMaps := rfl
@[simp] theorem setMemByte_breakOuts : (s.setMemByte x b).breakOuts = s.breakOuts := rfl
@[simp] theorem setMemByte_devices : (s.setMemByte x b).devices = s.devices := rfl
@[simp] theorem setMemByte_completed : (s.setMemByte x b).completed = s.completed := rfl

end setMemByte

/-! ### useFree -/

section useFree

variable (s : State)

@[simp] theorem useFree_d : (useFree s).d = s.d := rfl
@[simp] theorem useFree_a : (useFree s).a = s.a := rfl
@[simp] theorem useFree_pc : (useFree s).pc = s.pc := rfl
@[simp] theorem useFree_psw : (useFree s).psw = s.psw := rfl
@[simp] theorem useFree_pcxi : (useFree s).pcxi = s.pcxi := rfl
@[simp] theorem useFree_fcx : (useFree s).fcx = s.fcx := rfl
@[simp] theorem useFree_lcx : (useFree s).lcx = s.lcx := rfl
@[simp] theorem useFree_isp : (useFree s).isp = s.isp := rfl
@[simp] theorem useFree_icr : (useFree s).icr = s.icr := rfl
@[simp] theorem useFree_biv : (useFree s).biv = s.biv := rfl
@[simp] theorem useFree_btv : (useFree s).btv = s.btv := rfl
@[simp] theorem useFree_syscon : (useFree s).syscon = s.syscon := rfl
@[simp] theorem useFree_prot : (useFree s).prot = s.prot := rfl
@[simp] theorem useFree_mmuCon : (useFree s).mmuCon = s.mmuCon := rfl
@[simp] theorem useFree_mmuAsi : (useFree s).mmuAsi = s.mmuAsi := rfl
@[simp] theorem useFree_mmuTva : (useFree s).mmuTva = s.mmuTva := rfl
@[simp] theorem useFree_mmuTpa : (useFree s).mmuTpa = s.mmuTpa := rfl
@[simp] theorem useFree_mmuTpx : (useFree s).mmuTpx = s.mmuTpx := rfl
@[simp] theorem useFree_mmuTfa : (useFree s).mmuTfa = s.mmuTfa := rfl
@[simp] theorem useFree_tlbA : (useFree s).tlbA = s.tlbA := rfl
@[simp] theorem useFree_tlbB : (useFree s).tlbB = s.tlbB := rfl
@[simp] theorem useFree_dbgsr : (useFree s).dbgsr = s.dbgsr := rfl
@[simp] theorem useFree_exevt : (useFree s).exevt = s.exevt := rfl
@[simp] theorem useFree_crevt : (useFree s).crevt = s.crevt := rfl
@[simp] theorem useFree_swevt : (useFree s).swevt = s.swevt := rfl
@[simp] theorem useFree_trEvt : (useFree s).trEvt = s.trEvt := rfl
@[simp] theorem useFree_dms : (useFree s).dms = s.dms := rfl
@[simp] theorem useFree_dcx : (useFree s).dcx = s.dcx := rfl
@[simp] theorem useFree_cpuSrc : (useFree s).cpuSrc = s.cpuSrc := rfl
@[simp] theorem useFree_sbSrc : (useFree s).sbSrc = s.sbSrc := rfl
@[simp] theorem useFree_extraSrc : (useFree s).extraSrc = s.extraSrc := rfl
@[simp] theorem useFree_endinit : (useFree s).endinit = s.endinit := rfl
@[simp] theorem useFree_nmiPending : (useFree s).nmiPending = s.nmiPending := rfl
@[simp] theorem useFree_daePending : (useFree s).daePending = s.daePending := rfl
@[simp] theorem useFree_fcdPending : (useFree s).fcdPending = s.fcdPending := rfl
@[simp] theorem useFree_mem : (useFree s).mem = s.mem := rfl
@[simp] theorem useFree_platform : (useFree s).platform = s.platform := rfl
@[simp] theorem useFree_inputs : (useFree s).inputs = s.inputs := rfl
@[simp] theorem useFree_freeCount : (useFree s).freeCount = s.freeCount + 1 := rfl
@[simp] theorem useFree_recentMaps : (useFree s).recentMaps = s.recentMaps := rfl
@[simp] theorem useFree_breakOuts : (useFree s).breakOuts = s.breakOuts := rfl
@[simp] theorem useFree_devices : (useFree s).devices = s.devices := rfl
@[simp] theorem useFree_completed : (useFree s).completed = s.completed := rfl

end useFree

/-! ### advance -/

section advance

variable (s : State) (len : Len)

@[simp] theorem advance_d : (advance len s).d = s.d := rfl
@[simp] theorem advance_a : (advance len s).a = s.a := rfl
@[simp] theorem advance_pc : (advance len s).pc = s.pc + lenBytes len := rfl
@[simp] theorem advance_psw : (advance len s).psw = s.psw := rfl
@[simp] theorem advance_pcxi : (advance len s).pcxi = s.pcxi := rfl
@[simp] theorem advance_fcx : (advance len s).fcx = s.fcx := rfl
@[simp] theorem advance_lcx : (advance len s).lcx = s.lcx := rfl
@[simp] theorem advance_isp : (advance len s).isp = s.isp := rfl
@[simp] theorem advance_icr : (advance len s).icr = s.icr := rfl
@[simp] theorem advance_biv : (advance len s).biv = s.biv := rfl
@[simp] theorem advance_btv : (advance len s).btv = s.btv := rfl
@[simp] theorem advance_syscon : (advance len s).syscon = s.syscon := rfl
@[simp] theorem advance_prot : (advance len s).prot = s.prot := rfl
@[simp] theorem advance_mmuCon : (advance len s).mmuCon = s.mmuCon := rfl
@[simp] theorem advance_mmuAsi : (advance len s).mmuAsi = s.mmuAsi := rfl
@[simp] theorem advance_mmuTva : (advance len s).mmuTva = s.mmuTva := rfl
@[simp] theorem advance_mmuTpa : (advance len s).mmuTpa = s.mmuTpa := rfl
@[simp] theorem advance_mmuTpx : (advance len s).mmuTpx = s.mmuTpx := rfl
@[simp] theorem advance_mmuTfa : (advance len s).mmuTfa = s.mmuTfa := rfl
@[simp] theorem advance_tlbA : (advance len s).tlbA = s.tlbA := rfl
@[simp] theorem advance_tlbB : (advance len s).tlbB = s.tlbB := rfl
@[simp] theorem advance_dbgsr : (advance len s).dbgsr = s.dbgsr := rfl
@[simp] theorem advance_exevt : (advance len s).exevt = s.exevt := rfl
@[simp] theorem advance_crevt : (advance len s).crevt = s.crevt := rfl
@[simp] theorem advance_swevt : (advance len s).swevt = s.swevt := rfl
@[simp] theorem advance_trEvt : (advance len s).trEvt = s.trEvt := rfl
@[simp] theorem advance_dms : (advance len s).dms = s.dms := rfl
@[simp] theorem advance_dcx : (advance len s).dcx = s.dcx := rfl
@[simp] theorem advance_cpuSrc : (advance len s).cpuSrc = s.cpuSrc := rfl
@[simp] theorem advance_sbSrc : (advance len s).sbSrc = s.sbSrc := rfl
@[simp] theorem advance_extraSrc : (advance len s).extraSrc = s.extraSrc := rfl
@[simp] theorem advance_endinit : (advance len s).endinit = s.endinit := rfl
@[simp] theorem advance_nmiPending : (advance len s).nmiPending = s.nmiPending := rfl
@[simp] theorem advance_daePending : (advance len s).daePending = s.daePending := rfl
@[simp] theorem advance_fcdPending : (advance len s).fcdPending = s.fcdPending := rfl
@[simp] theorem advance_mem : (advance len s).mem = s.mem := rfl
@[simp] theorem advance_platform : (advance len s).platform = s.platform := rfl
@[simp] theorem advance_inputs : (advance len s).inputs = s.inputs := rfl
@[simp] theorem advance_freeCount : (advance len s).freeCount = s.freeCount := rfl
@[simp] theorem advance_recentMaps : (advance len s).recentMaps = s.recentMaps := rfl
@[simp] theorem advance_breakOuts : (advance len s).breakOuts = s.breakOuts := rfl
@[simp] theorem advance_devices : (advance len s).devices = s.devices := rfl
@[simp] theorem advance_completed : (advance len s).completed = s.completed := rfl

end advance

/-! ### logDevice -/

section logDevice

variable (s : State) (w : Bool) (pas : List Word) (bs : List Byte)

@[simp] theorem logDevice_d : (s.logDevice w pas bs).d = s.d := rfl
@[simp] theorem logDevice_a : (s.logDevice w pas bs).a = s.a := rfl
@[simp] theorem logDevice_pc : (s.logDevice w pas bs).pc = s.pc := rfl
@[simp] theorem logDevice_psw : (s.logDevice w pas bs).psw = s.psw := rfl
@[simp] theorem logDevice_pcxi : (s.logDevice w pas bs).pcxi = s.pcxi := rfl
@[simp] theorem logDevice_fcx : (s.logDevice w pas bs).fcx = s.fcx := rfl
@[simp] theorem logDevice_lcx : (s.logDevice w pas bs).lcx = s.lcx := rfl
@[simp] theorem logDevice_isp : (s.logDevice w pas bs).isp = s.isp := rfl
@[simp] theorem logDevice_icr : (s.logDevice w pas bs).icr = s.icr := rfl
@[simp] theorem logDevice_biv : (s.logDevice w pas bs).biv = s.biv := rfl
@[simp] theorem logDevice_btv : (s.logDevice w pas bs).btv = s.btv := rfl
@[simp] theorem logDevice_syscon : (s.logDevice w pas bs).syscon = s.syscon := rfl
@[simp] theorem logDevice_prot : (s.logDevice w pas bs).prot = s.prot := rfl
@[simp] theorem logDevice_mmuCon : (s.logDevice w pas bs).mmuCon = s.mmuCon := rfl
@[simp] theorem logDevice_mmuAsi : (s.logDevice w pas bs).mmuAsi = s.mmuAsi := rfl
@[simp] theorem logDevice_mmuTva : (s.logDevice w pas bs).mmuTva = s.mmuTva := rfl
@[simp] theorem logDevice_mmuTpa : (s.logDevice w pas bs).mmuTpa = s.mmuTpa := rfl
@[simp] theorem logDevice_mmuTpx : (s.logDevice w pas bs).mmuTpx = s.mmuTpx := rfl
@[simp] theorem logDevice_mmuTfa : (s.logDevice w pas bs).mmuTfa = s.mmuTfa := rfl
@[simp] theorem logDevice_tlbA : (s.logDevice w pas bs).tlbA = s.tlbA := rfl
@[simp] theorem logDevice_tlbB : (s.logDevice w pas bs).tlbB = s.tlbB := rfl
@[simp] theorem logDevice_dbgsr : (s.logDevice w pas bs).dbgsr = s.dbgsr := rfl
@[simp] theorem logDevice_exevt : (s.logDevice w pas bs).exevt = s.exevt := rfl
@[simp] theorem logDevice_crevt : (s.logDevice w pas bs).crevt = s.crevt := rfl
@[simp] theorem logDevice_swevt : (s.logDevice w pas bs).swevt = s.swevt := rfl
@[simp] theorem logDevice_trEvt : (s.logDevice w pas bs).trEvt = s.trEvt := rfl
@[simp] theorem logDevice_dms : (s.logDevice w pas bs).dms = s.dms := rfl
@[simp] theorem logDevice_dcx : (s.logDevice w pas bs).dcx = s.dcx := rfl
@[simp] theorem logDevice_cpuSrc : (s.logDevice w pas bs).cpuSrc = s.cpuSrc := rfl
@[simp] theorem logDevice_sbSrc : (s.logDevice w pas bs).sbSrc = s.sbSrc := rfl
@[simp] theorem logDevice_extraSrc : (s.logDevice w pas bs).extraSrc = s.extraSrc := rfl
@[simp] theorem logDevice_endinit : (s.logDevice w pas bs).endinit = s.endinit := rfl
@[simp] theorem logDevice_nmiPending : (s.logDevice w pas bs).nmiPending = s.nmiPending := rfl
@[simp] theorem logDevice_daePending : (s.logDevice w pas bs).daePending = s.daePending := rfl
@[simp] theorem logDevice_fcdPending : (s.logDevice w pas bs).fcdPending = s.fcdPending := rfl
@[simp] theorem logDevice_mem : (s.logDevice w pas bs).mem = s.mem := rfl
@[simp] theorem logDevice_platform : (s.logDevice w pas bs).platform = s.platform := rfl
@[simp] theorem logDevice_inputs : (s.logDevice w pas bs).inputs = s.inputs := rfl
@[simp] theorem logDevice_freeCount : (s.logDevice w pas bs).freeCount = s.freeCount + 1 := rfl
@[simp] theorem logDevice_recentMaps : (s.logDevice w pas bs).recentMaps = s.recentMaps := rfl
@[simp] theorem logDevice_breakOuts : (s.logDevice w pas bs).breakOuts = s.breakOuts := rfl
@[simp] theorem logDevice_devices : (s.logDevice w pas bs).devices = { write := w, addr := (pas.getD 0 0).toNat, bytes := bs } :: s.devices := rfl
@[simp] theorem logDevice_completed : (s.logDevice w pas bs).completed = s.completed := rfl

end logDevice

/-! ### setProt -/

section setProt

variable (s : State) (x : Fin 4) (p : ProtSet)

@[simp] theorem setProt_d : (setProt s x p).d = s.d := rfl
@[simp] theorem setProt_a : (setProt s x p).a = s.a := rfl
@[simp] theorem setProt_pc : (setProt s x p).pc = s.pc := rfl
@[simp] theorem setProt_psw : (setProt s x p).psw = s.psw := rfl
@[simp] theorem setProt_pcxi : (setProt s x p).pcxi = s.pcxi := rfl
@[simp] theorem setProt_fcx : (setProt s x p).fcx = s.fcx := rfl
@[simp] theorem setProt_lcx : (setProt s x p).lcx = s.lcx := rfl
@[simp] theorem setProt_isp : (setProt s x p).isp = s.isp := rfl
@[simp] theorem setProt_icr : (setProt s x p).icr = s.icr := rfl
@[simp] theorem setProt_biv : (setProt s x p).biv = s.biv := rfl
@[simp] theorem setProt_btv : (setProt s x p).btv = s.btv := rfl
@[simp] theorem setProt_syscon : (setProt s x p).syscon = s.syscon := rfl
@[simp] theorem setProt_prot : (setProt s x p).prot = s.prot.set x p := rfl
@[simp] theorem setProt_mmuCon : (setProt s x p).mmuCon = s.mmuCon := rfl
@[simp] theorem setProt_mmuAsi : (setProt s x p).mmuAsi = s.mmuAsi := rfl
@[simp] theorem setProt_mmuTva : (setProt s x p).mmuTva = s.mmuTva := rfl
@[simp] theorem setProt_mmuTpa : (setProt s x p).mmuTpa = s.mmuTpa := rfl
@[simp] theorem setProt_mmuTpx : (setProt s x p).mmuTpx = s.mmuTpx := rfl
@[simp] theorem setProt_mmuTfa : (setProt s x p).mmuTfa = s.mmuTfa := rfl
@[simp] theorem setProt_tlbA : (setProt s x p).tlbA = s.tlbA := rfl
@[simp] theorem setProt_tlbB : (setProt s x p).tlbB = s.tlbB := rfl
@[simp] theorem setProt_dbgsr : (setProt s x p).dbgsr = s.dbgsr := rfl
@[simp] theorem setProt_exevt : (setProt s x p).exevt = s.exevt := rfl
@[simp] theorem setProt_crevt : (setProt s x p).crevt = s.crevt := rfl
@[simp] theorem setProt_swevt : (setProt s x p).swevt = s.swevt := rfl
@[simp] theorem setProt_trEvt : (setProt s x p).trEvt = s.trEvt := rfl
@[simp] theorem setProt_dms : (setProt s x p).dms = s.dms := rfl
@[simp] theorem setProt_dcx : (setProt s x p).dcx = s.dcx := rfl
@[simp] theorem setProt_cpuSrc : (setProt s x p).cpuSrc = s.cpuSrc := rfl
@[simp] theorem setProt_sbSrc : (setProt s x p).sbSrc = s.sbSrc := rfl
@[simp] theorem setProt_extraSrc : (setProt s x p).extraSrc = s.extraSrc := rfl
@[simp] theorem setProt_endinit : (setProt s x p).endinit = s.endinit := rfl
@[simp] theorem setProt_nmiPending : (setProt s x p).nmiPending = s.nmiPending := rfl
@[simp] theorem setProt_daePending : (setProt s x p).daePending = s.daePending := rfl
@[simp] theorem setProt_fcdPending : (setProt s x p).fcdPending = s.fcdPending := rfl
@[simp] theorem setProt_mem : (setProt s x p).mem = s.mem := rfl
@[simp] theorem setProt_platform : (setProt s x p).platform = s.platform := rfl
@[simp] theorem setProt_inputs : (setProt s x p).inputs = s.inputs := rfl
@[simp] theorem setProt_freeCount : (setProt s x p).freeCount = s.freeCount := rfl
@[simp] theorem setProt_recentMaps : (setProt s x p).recentMaps = s.recentMaps := rfl
@[simp] theorem setProt_breakOuts : (setProt s x p).breakOuts = s.breakOuts := rfl
@[simp] theorem setProt_devices : (setProt s x p).devices = s.devices := rfl
@[simp] theorem setProt_completed : (setProt s x p).completed = s.completed := rfl

end setProt

/-! ### loadUpperRegs -/

section loadUpperRegs

variable (s : State) (bs : List Byte)

@[simp] theorem loadUpperRegs_pc : (loadUpperRegs bs s).pc = s.pc := rfl
@[simp] theorem loadUpperRegs_psw : (loadUpperRegs bs s).psw = s.psw := rfl
@[simp] theorem loadUpperRegs_pcxi : (loadUpperRegs bs s).pcxi = s.pcxi := rfl
@[simp] theorem loadUpperRegs_fcx : (loadUpperRegs bs s).fcx = s.fcx := rfl
@[simp] theorem loadUpperRegs_lcx : (loadUpperRegs bs s).lcx = s.lcx := rfl
@[simp] theorem loadUpperRegs_isp : (loadUpperRegs bs s).isp = s.isp := rfl
@[simp] theorem loadUpperRegs_icr : (loadUpperRegs bs s).icr = s.icr := rfl
@[simp] theorem loadUpperRegs_biv : (loadUpperRegs bs s).biv = s.biv := rfl
@[simp] theorem loadUpperRegs_btv : (loadUpperRegs bs s).btv = s.btv := rfl
@[simp] theorem loadUpperRegs_syscon : (loadUpperRegs bs s).syscon = s.syscon := rfl
@[simp] theorem loadUpperRegs_prot : (loadUpperRegs bs s).prot = s.prot := rfl
@[simp] theorem loadUpperRegs_mmuCon : (loadUpperRegs bs s).mmuCon = s.mmuCon := rfl
@[simp] theorem loadUpperRegs_mmuAsi : (loadUpperRegs bs s).mmuAsi = s.mmuAsi := rfl
@[simp] theorem loadUpperRegs_mmuTva : (loadUpperRegs bs s).mmuTva = s.mmuTva := rfl
@[simp] theorem loadUpperRegs_mmuTpa : (loadUpperRegs bs s).mmuTpa = s.mmuTpa := rfl
@[simp] theorem loadUpperRegs_mmuTpx : (loadUpperRegs bs s).mmuTpx = s.mmuTpx := rfl
@[simp] theorem loadUpperRegs_mmuTfa : (loadUpperRegs bs s).mmuTfa = s.mmuTfa := rfl
@[simp] theorem loadUpperRegs_tlbA : (loadUpperRegs bs s).tlbA = s.tlbA := rfl
@[simp] theorem loadUpperRegs_tlbB : (loadUpperRegs bs s).tlbB = s.tlbB := rfl
@[simp] theorem loadUpperRegs_dbgsr : (loadUpperRegs bs s).dbgsr = s.dbgsr := rfl
@[simp] theorem loadUpperRegs_exevt : (loadUpperRegs bs s).exevt = s.exevt := rfl
@[simp] theorem loadUpperRegs_crevt : (loadUpperRegs bs s).crevt = s.crevt := rfl
@[simp] theorem loadUpperRegs_swevt : (loadUpperRegs bs s).swevt = s.swevt := rfl
@[simp] theorem loadUpperRegs_trEvt : (loadUpperRegs bs s).trEvt = s.trEvt := rfl
@[simp] theorem loadUpperRegs_dms : (loadUpperRegs bs s).dms = s.dms := rfl
@[simp] theorem loadUpperRegs_dcx : (loadUpperRegs bs s).dcx = s.dcx := rfl
@[simp] theorem loadUpperRegs_cpuSrc : (loadUpperRegs bs s).cpuSrc = s.cpuSrc := rfl
@[simp] theorem loadUpperRegs_sbSrc : (loadUpperRegs bs s).sbSrc = s.sbSrc := rfl
@[simp] theorem loadUpperRegs_extraSrc : (loadUpperRegs bs s).extraSrc = s.extraSrc := rfl
@[simp] theorem loadUpperRegs_endinit : (loadUpperRegs bs s).endinit = s.endinit := rfl
@[simp] theorem loadUpperRegs_nmiPending : (loadUpperRegs bs s).nmiPending = s.nmiPending := rfl
@[simp] theorem loadUpperRegs_daePending : (loadUpperRegs bs s).daePending = s.daePending := rfl
@[simp] theorem loadUpperRegs_fcdPending : (loadUpperRegs bs s).fcdPending = s.fcdPending := rfl
@[simp] theorem loadUpperRegs_mem : (loadUpperRegs bs s).mem = s.mem := rfl
@[simp] theorem loadUpperRegs_platform : (loadUpperRegs bs s).platform = s.platform := rfl
@[simp] theorem loadUpperRegs_inputs : (loadUpperRegs bs s).inputs = s.inputs := rfl
@[simp] theorem loadUpperRegs_freeCount : (loadUpperRegs bs s).freeCount = s.freeCount := rfl
@[simp] theorem loadUpperRegs_recentMaps : (loadUpperRegs bs s).recentMaps = s.recentMaps := rfl
@[simp] theorem loadUpperRegs_breakOuts : (loadUpperRegs bs s).breakOuts = s.breakOuts := rfl
@[simp] theorem loadUpperRegs_devices : (loadUpperRegs bs s).devices = s.devices := rfl
@[simp] theorem loadUpperRegs_completed : (loadUpperRegs bs s).completed = s.completed := rfl

end loadUpperRegs

/-! ### loadLowerRegs -/

section loadLowerRegs

variable (s : State) (bs : List Byte)

@[simp] theorem loadLowerRegs_pc : (loadLowerRegs bs s).pc = s.pc := rfl
@[simp] theorem loadLowerRegs_psw : (loadLowerRegs bs s).psw = s.psw := rfl
@[simp] theorem loadLowerRegs_pcxi : (loadLowerRegs bs s).pcxi = s.pcxi := rfl
@[simp] theorem loadLowerRegs_fcx : (loadLowerRegs bs s).fcx = s.fcx := rfl
@[simp] theorem loadLowerRegs_lcx : (loadLowerRegs bs s).lcx = s.lcx := rfl
@[simp] theorem loadLowerRegs_isp : (loadLowerRegs bs s).isp = s.isp := rfl
@[simp] theorem loadLowerRegs_icr : (loadLowerRegs bs s).icr = s.icr := rfl
@[simp] theorem loadLowerRegs_biv : (loadLowerRegs bs s).biv = s.biv := rfl
@[simp] theorem loadLowerRegs_btv : (loadLowerRegs bs s).btv = s.btv := rfl
@[simp] theorem loadLowerRegs_syscon : (loadLowerRegs bs s).syscon = s.syscon := rfl
@[simp] theorem loadLowerRegs_prot : (loadLowerRegs bs s).prot = s.prot := rfl
@[simp] theorem loadLowerRegs_mmuCon : (loadLowerRegs bs s).mmuCon = s.mmuCon := rfl
@[simp] theorem loadLowerRegs_mmuAsi : (loadLowerRegs bs s).mmuAsi = s.mmuAsi := rfl
@[simp] theorem loadLowerRegs_mmuTva : (loadLowerRegs bs s).mmuTva = s.mmuTva := rfl
@[simp] theorem loadLowerRegs_mmuTpa : (loadLowerRegs bs s).mmuTpa = s.mmuTpa := rfl
@[simp] theorem loadLowerRegs_mmuTpx : (loadLowerRegs bs s).mmuTpx = s.mmuTpx := rfl
@[simp] theorem loadLowerRegs_mmuTfa : (loadLowerRegs bs s).mmuTfa = s.mmuTfa := rfl
@[simp] theorem loadLowerRegs_tlbA : (loadLowerRegs bs s).tlbA = s.tlbA := rfl
@[simp] theorem loadLowerRegs_tlbB : (loadLowerRegs bs s).tlbB = s.tlbB := rfl
@[simp] theorem loadLowerRegs_dbgsr : (loadLowerRegs bs s).dbgsr = s.dbgsr := rfl
@[simp] theorem loadLowerRegs_exevt : (loadLowerRegs bs s).exevt = s.exevt := rfl
@[simp] theorem loadLowerRegs_crevt : (loadLowerRegs bs s).crevt = s.crevt := rfl
@[simp] theorem loadLowerRegs_swevt : (loadLowerRegs bs s).swevt = s.swevt := rfl
@[simp] theorem loadLowerRegs_trEvt : (loadLowerRegs bs s).trEvt = s.trEvt := rfl
@[simp] theorem loadLowerRegs_dms : (loadLowerRegs bs s).dms = s.dms := rfl
@[simp] theorem loadLowerRegs_dcx : (loadLowerRegs bs s).dcx = s.dcx := rfl
@[simp] theorem loadLowerRegs_cpuSrc : (loadLowerRegs bs s).cpuSrc = s.cpuSrc := rfl
@[simp] theorem loadLowerRegs_sbSrc : (loadLowerRegs bs s).sbSrc = s.sbSrc := rfl
@[simp] theorem loadLowerRegs_extraSrc : (loadLowerRegs bs s).extraSrc = s.extraSrc := rfl
@[simp] theorem loadLowerRegs_endinit : (loadLowerRegs bs s).endinit = s.endinit := rfl
@[simp] theorem loadLowerRegs_nmiPending : (loadLowerRegs bs s).nmiPending = s.nmiPending := rfl
@[simp] theorem loadLowerRegs_daePending : (loadLowerRegs bs s).daePending = s.daePending := rfl
@[simp] theorem loadLowerRegs_fcdPending : (loadLowerRegs bs s).fcdPending = s.fcdPending := rfl
@[simp] theorem loadLowerRegs_mem : (loadLowerRegs bs s).mem = s.mem := rfl
@[simp] theorem loadLowerRegs_platform : (loadLowerRegs bs s).platform = s.platform := rfl
@[simp] theorem loadLowerRegs_inputs : (loadLowerRegs bs s).inputs = s.inputs := rfl
@[simp] theorem loadLowerRegs_freeCount : (loadLowerRegs bs s).freeCount = s.freeCount := rfl
@[simp] theorem loadLowerRegs_recentMaps : (loadLowerRegs bs s).recentMaps = s.recentMaps := rfl
@[simp] theorem loadLowerRegs_breakOuts : (loadLowerRegs bs s).breakOuts = s.breakOuts := rfl
@[simp] theorem loadLowerRegs_devices : (loadLowerRegs bs s).devices = s.devices := rfl
@[simp] theorem loadLowerRegs_completed : (loadLowerRegs bs s).completed = s.completed := rfl

end loadLowerRegs

end Sys2Proof.Machine
end

