-- ==== Sys2Proof/Laws/Memory.lean ====
section
/-!
SUPPORT. Sys2Proof/Laws/Memory.lean: read after write, and the canonical form, which every write keeps.
-/
namespace Sys2Proof.Machine

/-! ### The list -/

theorem Memory.get_below (m : List Host.Cell) (lo x : Nat) (h : Memory.wfFrom lo m = true) (hx : x < lo) :
    Memory.get m x = Memory.unlisted := by
  induction m generalizing lo with
  | nil => rfl
  | cons c rest ih =>
    obtain ⟨a, b⟩ := c
    simp only [Memory.wfFrom, Bool.and_eq_true, decide_eq_true_eq] at h
    simp only [Memory.get]
    rw [if_neg (by omega)]
    exact ih (a + 1) h.2 (by omega)

/-- A weaker lower bound. -/
theorem Memory.wfFrom_mono (m : List Host.Cell) (lo lo' : Nat) (h : Memory.wfFrom lo m = true) (hl : lo' ≤ lo) :
    Memory.wfFrom lo' m = true := by
  cases m with
  | nil => rfl
  | cons c rest =>
    obtain ⟨a, b⟩ := c
    simp only [Memory.wfFrom, Bool.and_eq_true, decide_eq_true_eq] at h ⊢
    exact ⟨⟨⟨by omega, h.1.1.2⟩, h.1.2⟩, h.2⟩

/-- A write keeps the canonical form. -/
theorem Memory.wfFrom_set (m : List Host.Cell) (lo x : Nat) (v : Byte) (h : Memory.wfFrom lo m = true)
    (hlo : lo ≤ x) (hx : x < 2 ^ 32) : Memory.wfFrom lo (Memory.set m x v) = true := by
  induction m generalizing lo with
  | nil =>
    simp only [Memory.set]
    split
    · rfl
    · simp_all [Memory.wfFrom]
  | cons c rest ih =>
    obtain ⟨a, b⟩ := c
    simp only [Memory.wfFrom, Bool.and_eq_true, decide_eq_true_eq] at h
    simp only [Memory.set]
    split
    · split
      · simp_all [Memory.wfFrom]
      · simp only [Memory.wfFrom, Bool.and_eq_true, decide_eq_true_eq]
        exact ⟨⟨⟨hlo, hx⟩, by simp_all⟩, ⟨⟨⟨by omega, h.1.1.2⟩, h.1.2⟩, h.2⟩⟩
    · split
      · split
        · exact Memory.wfFrom_mono rest (a + 1) lo h.2 (by omega)
        · simp_all [Memory.wfFrom]
      · simp only [Memory.wfFrom, Bool.and_eq_true, decide_eq_true_eq]
        exact ⟨h.1, ih (a + 1) h.2 (by omega)⟩

theorem Memory.wf_set (m : List Host.Cell) (x : Nat) (v : Byte) (h : Memory.wf m = true) (hx : x < 2 ^ 32) :
    Memory.wf (Memory.set m x v) = true := Memory.wfFrom_set m 0 x v h (Nat.zero_le x) hx

/-- A read after a write to the same address gives the value written. -/
theorem Memory.get_set_same (m : List Host.Cell) (x : Nat) (v : Byte) (h : Memory.wf m = true) :
    Memory.get (Memory.set m x v) x = v := by
  unfold Memory.wf at h
  generalize 0 = lo at h
  induction m generalizing lo with
  | nil => by_cases hv : v = Memory.unlisted <;> simp [Memory.set, Memory.get, hv]
  | cons c rest ih =>
    obtain ⟨a, b⟩ := c
    simp only [Memory.wfFrom, Bool.and_eq_true, decide_eq_true_eq] at h
    simp only [Memory.set]
    split
    · split
      · next hxa hv => rw [Memory.get, if_neg (by omega), hv]; exact Memory.get_below rest (a + 1) x h.2 (by omega)
      · simp [Memory.get]
    · split
      · next hxa =>
        subst hxa
        split
        · next hv => rw [hv]; exact Memory.get_below rest (x + 1) x h.2 (by omega)
        · simp [Memory.get]
      · next h1 h2 => rw [Memory.get, if_neg (by omega)]; exact ih (a + 1) h.2

/-- A write leaves every other address alone. -/
theorem Memory.get_set_other (m : List Host.Cell) (x y : Nat) (v : Byte) (hxy : y ≠ x) :
    Memory.get (Memory.set m x v) y = Memory.get m y := by
  induction m with
  | nil => by_cases hv : v = Memory.unlisted <;> simp [Memory.set, Memory.get, hv, hxy.symm]
  | cons c rest ih =>
    obtain ⟨a, b⟩ := c
    simp only [Memory.set]
    split
    · split
      · rfl
      · simp [Memory.get, hxy.symm]
    · split
      · next hxa =>
        subst hxa
        split
        · simp [Memory.get, hxy.symm]
        · simp [Memory.get, hxy.symm]
      · simp [Memory.get, ih]

/-! ### The state's memory -/

theorem State.memByte_setMemByte_same (s : State) (x : Word) (b : Byte) (h : Memory.wf s.mem = true) :
    (s.setMemByte x b).memByte x = b := Memory.get_set_same s.mem x.toNat b h

theorem State.memByte_setMemByte_other (s : State) (x y : Word) (b : Byte) (h : y ≠ x) :
    (s.setMemByte x b).memByte y = s.memByte y :=
  Memory.get_set_other s.mem x.toNat y.toNat b (fun he => h (BitVec.eq_of_toNat_eq he))

theorem State.wf_setMemByte (s : State) (x : Word) (b : Byte) (h : Memory.wf s.mem = true) :
    Memory.wf (s.setMemByte x b).mem = true := Memory.wf_set s.mem x.toNat b h x.isLt

@[simp] theorem State.setMemBytes_nil (s : State) (bs : List Byte) : s.setMemBytes [] bs = s := rfl

@[simp] theorem State.setMemBytes_cons (s : State) (p : Word) (ps : List Word) (b : Byte) (bs : List Byte) :
    s.setMemBytes (p :: ps) (b :: bs) = (s.setMemByte p b).setMemBytes ps bs := rfl

@[simp] theorem State.setMemBytes_nil_right (s : State) (ps : List Word) : s.setMemBytes ps [] = s := by
  simp [State.setMemBytes]

/-- Writing bytes changes the memory alone. -/
theorem State.setMemBytes_eq (s : State) (ps : List Word) (bs : List Byte) :
    s.setMemBytes ps bs = { s with mem := (s.setMemBytes ps bs).mem } := by
  induction ps generalizing s bs with
  | nil => rfl
  | cons p ps ih =>
    cases bs with
    | nil => rw [State.setMemBytes_nil_right]
    | cons b bs => rw [State.setMemBytes_cons, ih (s.setMemByte p b) bs]; rfl

theorem State.wf_setMemBytes (s : State) (ps : List Word) (bs : List Byte) (h : Memory.wf s.mem = true) :
    Memory.wf (s.setMemBytes ps bs).mem = true := by
  induction ps generalizing s bs with
  | nil => exact h
  | cons p ps ih =>
    cases bs with
    | nil => rwa [State.setMemBytes_nil_right]
    | cons b bs => exact ih _ bs (s.wf_setMemByte p b h)

/-- Writing bytes leaves every other address alone. -/
theorem State.memByte_setMemBytes_other (s : State) (ps : List Word) (bs : List Byte) (y : Word) (h : y ∉ ps) :
    (s.setMemBytes ps bs).memByte y = s.memByte y := by
  induction ps generalizing s bs with
  | nil => rfl
  | cons p ps ih =>
    cases bs with
    | nil => rw [State.setMemBytes_nil_right]
    | cons b bs =>
      rw [List.mem_cons, not_or] at h
      rw [State.setMemBytes_cons, ih _ bs h.2, s.memByte_setMemByte_other p y b h.1]

/-- A byte written at distinct addresses reads back. -/
theorem State.memByte_setMemBytes_mem (s : State) (ps : List Word) (bs : List Byte) (hd : ps.Nodup)
    (h : Memory.wf s.mem = true) (k : Nat) (hk : k < ps.length) (hb : k < bs.length) :
    (s.setMemBytes ps bs).memByte ps[k] = bs[k] := by
  induction ps generalizing s bs k with
  | nil => simp at hk
  | cons p ps ih =>
    cases bs with
    | nil => simp at hb
    | cons b bs =>
      rw [List.nodup_cons] at hd
      rw [State.setMemBytes_cons]
      cases k with
      | zero =>
        simp only [List.getElem_cons_zero]
        rw [State.memByte_setMemBytes_other _ _ _ _ hd.1, State.memByte_setMemByte_same _ _ _ h]
      | succ k =>
        simp only [List.getElem_cons_succ]
        exact ih _ bs hd.2 (s.wf_setMemByte p b h) k (by simpa using hk) (by simpa using hb)

/-- The reset memory is canonical. -/
theorem State.reset_wf : Memory.wf State.reset.mem = true := rfl

/-- The addresses of a block are distinct. -/
theorem addrs_nodup (a : Word) (n : Nat) (h : n ≤ 2 ^ 32) : (addrs a n).Nodup := by
  unfold addrs
  apply List.Pairwise.map (R := fun i j => i ≠ j ∧ i < 2 ^ 32 ∧ j < 2 ^ 32)
  · intro i j ⟨hij, hi, hj⟩ he
    apply hij
    have hb : BitVec.ofNat 32 i = BitVec.ofNat 32 j := by
      have := congrArg (fun z => z - a) he
      simpa using this
    have := congrArg BitVec.toNat hb
    rwa [BitVec.toNat_ofNat, BitVec.toNat_ofNat, Nat.mod_eq_of_lt hi, Nat.mod_eq_of_lt hj] at this
  · rw [List.pairwise_iff_getElem]
    intro i j hi hj hij
    rw [List.length_range] at hi hj
    simp only [List.getElem_range]
    omega

end Sys2Proof.Machine
end

