-- ==== Sys2Proof/Laws/Ops.lean ====
section
/-!
SUPPORT. Sys2Proof/Laws/Ops.lean: what each shared operation can do, said once: how a meaning ends, the guards, the
access checks of 20_memory R175, the shapes of the loads, stores and read-modify-writes.
-/
namespace Sys2Proof.Machine

/-! ### Registers -/

@[simp] theorem dr_setD_same (s : State) (r : Fin 16) (v : Word) : (s.setD r v).dr r = v := by
  simp [State.dr, State.setD]

theorem dr_setD_other (s : State) (r q : Fin 16) (v : Word) (h : q ≠ r) : (s.setD r v).dr q = s.dr q := by
  have : (r : Nat) ≠ q := fun e => h (Fin.ext e.symm)
  simp [State.dr, State.setD, this]

@[simp] theorem ar_setA_same (s : State) (r : Fin 16) (v : Word) : (s.setA r v).ar r = v := by
  simp [State.ar, State.setA]

theorem ar_setA_other (s : State) (r q : Fin 16) (v : Word) (h : q ≠ r) : (s.setA r v).ar q = s.ar q := by
  have : (r : Nat) ≠ q := fun e => h (Fin.ext e.symm)
  simp [State.ar, State.setA, this]

@[simp] theorem ar_setD (s : State) (r q : Fin 16) (v : Word) : (s.setD r v).ar q = s.ar q := rfl
@[simp] theorem dr_setA (s : State) (r q : Fin 16) (v : Word) : (s.setA r v).dr q = s.dr q := rfl

/-! ### The ways a meaning ends -/

@[simp] theorem finish_ok (s t : State) : finish s (.ok t) = .next { t with completed := true } := rfl
@[simp] theorem finish_trap (s : State) (t : Trap) : finish s (.error (.trap t)) = .next (takeTrap t s) := rfl
@[simp] theorem finish_fcu (s : State) : finish s (.error .fcu) = .next (takeFcu s) := rfl
@[simp] theorem finish_debugged (s t : State) : finish s (.error (.debugged t)) = .next { t with completed := false } := rfl
@[simp] theorem finish_fault (s : State) (f : Fault) : finish s (.error (.fault f)) = .fault f := rfl
@[simp] theorem finish_refuse (s : State) (r : Refusal) : finish s (.error (.refuse r)) = .refused r := rfl

/-- A meaning answers a next state in four ways. -/
theorem finish_next {s t : State} {r : Res} (h : finish s r = .next t) :
    (∃ u, r = .ok u ∧ t = { u with completed := true }) ∨ (∃ p, r = .error (.trap p) ∧ t = takeTrap p s) ∨
    (r = .error .fcu ∧ t = takeFcu s) ∨ (∃ u, r = .error (.debugged u) ∧ t = { u with completed := false }) := by
  match r, h with
  | .ok u, h => exact .inl ⟨u, rfl, by simpa using h.symm⟩
  | .error (.trap p), h => exact .inr (.inl ⟨p, rfl, by simpa using h.symm⟩)
  | .error .fcu, h => exact .inr (.inr (.inl ⟨rfl, by simpa using h.symm⟩))
  | .error (.debugged u), h => exact .inr (.inr (.inr ⟨u, rfl, by simpa using h.symm⟩))
  | .error (.fault f), h => cases h
  | .error (.refuse f), h => cases h

/-- A meaning faults where its body does. -/
theorem finish_fault_iff {s : State} {r : Res} {f : Fault} : finish s r = .fault f ↔ r = .error (.fault f) := by
  match r with
  | .ok u => simp
  | .error (.trap p) => simp
  | .error .fcu => simp
  | .error (.debugged u) => simp
  | .error (.fault g) => simp
  | .error (.refuse g) => simp

/-- A meaning refuses where its body does. -/
theorem finish_refused_iff {s : State} {r : Res} {f : Refusal} : finish s r = .refused f ↔ r = .error (.refuse f) := by
  match r with
  | .ok u => simp
  | .error (.trap p) => simp
  | .error .fcu => simp
  | .error (.debugged u) => simp
  | .error (.fault g) => simp
  | .error (.refuse g) => simp

/-! ### Guards in a sequence -/

theorem bind_eq_ok {α β : Type} {x : Except Stop α} {f : α → Except Stop β} {b : β} :
    (x >>= f) = .ok b ↔ ∃ a, x = .ok a ∧ f a = .ok b := by
  cases x with
  | error e => exact ⟨fun h => (nomatch h), fun ⟨_, h, _⟩ => (nomatch h)⟩
  | ok a => exact ⟨fun h => ⟨a, rfl, h⟩, fun ⟨_, h, h'⟩ => by cases h; exact h'⟩

theorem bind_eq_error {α β : Type} {x : Except Stop α} {f : α → Except Stop β} {e : Stop} :
    (x >>= f) = .error e ↔ x = .error e ∨ ∃ a, x = .ok a ∧ f a = .error e := by
  cases x with
  | error e' =>
    constructor
    · intro h; cases h; exact .inl rfl
    · rintro (h | ⟨_, h, _⟩) <;> cases h; rfl
  | ok a =>
    constructor
    · intro h; exact .inr ⟨a, rfl, h⟩
    · rintro (h | ⟨_, h, h'⟩) <;> cases h; exact h'

@[simp] theorem ok_bind {α β : Type} (a : α) (f : α → Except Stop β) : ((.ok a : Except Stop α) >>= f) = f a := rfl
@[simp] theorem error_bind {α β : Type} (e : Stop) (f : α → Except Stop β) :
    ((.error e : Except Stop α) >>= f) = .error e := rfl

@[simp] theorem raiseIf_true (t : Trap) : raiseIf true t = .error (.trap t) := rfl
@[simp] theorem raiseIf_false (t : Trap) : raiseIf false t = .ok () := rfl
@[simp] theorem stopIf_true (e : Stop) : stopIf true e = .error e := rfl
@[simp] theorem stopIf_false (e : Stop) : stopIf false e = .ok () := rfl

@[simp] theorem raiseIf_eq_ok (b : Bool) (t : Trap) (u : Unit) : raiseIf b t = .ok u ↔ b = false := by
  cases b <;> simp
@[simp] theorem raiseIf_eq_error (b : Bool) (t : Trap) (e : Stop) : raiseIf b t = .error e ↔ b = true ∧ e = .trap t := by
  cases b <;> simp [eq_comm]
@[simp] theorem stopIf_eq_ok (b : Bool) (e : Stop) (u : Unit) : stopIf b e = .ok u ↔ b = false := by
  cases b <;> simp
@[simp] theorem stopIf_eq_error (b : Bool) (e e' : Stop) : stopIf b e = .error e' ↔ b = true ∧ e' = e := by
  cases b <;> simp [eq_comm]

@[simp] theorem opd_eq_ok (b : Bool) (u : Unit) : opd b = .ok u ↔ b = false := by simp [opd]
@[simp] theorem grwp_eq_ok (s : State) (b : Bool) (u : Unit) : grwp s b = .ok u ↔ (b = true → pswGw s.psw = true) := by
  cases b <;> cases h : pswGw s.psw <;> simp [grwp, h]
@[simp] theorem supervisorOnly_eq_ok (s : State) (u : Unit) : supervisorOnly s = .ok u ↔ isSupervisor s = true := by
  simp [supervisorOnly]
@[simp] theorem mmuPrologue_eq_ok (s : State) (u : Unit) :
    mmuPrologue s = .ok u ↔ mmuNone s.mmuCon = false ∧ isSupervisor s = true := by
  simp [mmuPrologue, bind_eq_ok]

/-! ### The access checks -/

/-- Translation succeeds where every address has a TTE that permits the access, none of them into peripheral space. -/
theorem translateAll_eq_ok (s : State) (ea : Word) (vas : List Word) (x r w : Bool) (pas : List Word) :
    translateAll s ea vas x r w = .ok pas ↔
      (∀ va ∈ vas, (physOf s va).isSome = true) ∧
      (∀ va ∈ vas, pteDenies s va x r w = false ∧ upperDenied s va = false) ∧
      (∀ va ∈ vas, usesPte s va = true → ∀ pa, physOf s va = some pa → hasP (attrOf s pa) = false) ∧
      pas = vas.map fun va => (physOf s va).getD 0#32 := by
  simp only [translateAll, bind_eq_ok, raiseIf_eq_ok, stopIf_eq_ok, exists_and_left, exists_const]
  simp only [Except.ok.injEq, Option.isNone_eq_false_iff, Bool.or_eq_false_iff, List.any_eq_false, Bool.and_eq_true,
    not_and, Bool.not_eq_true]
  refine and_congr Iff.rfl (and_congr Iff.rfl (and_congr ?_ eq_comm))
  refine forall_congr' fun va => forall_congr' fun _ => forall_congr' fun _ => ?_
  cases physOf s va <;> simp

/-- The checks of 20_memory R175 pass exactly where the access is in order, and give the physical addresses. -/
theorem checkData_eq_ok (s : State) (m : Mode) (kind : AccessKind) (pas : List Word) :
    checkData s m kind = .ok pas ↔ AccessOk s m kind ∧ pas = accessAddrs s m kind.size := by
  simp only [checkData, bind_eq_ok, raiseIf_eq_ok, stopIf_eq_ok, translateAll_eq_ok, exists_and_left, exists_const]
  constructor
  · rintro ⟨h1, h2, h3, pas', ⟨h4, h5, h6, rfl⟩, h7, h8, h9, h10, h11, h12, h13⟩
    rw [Bool.or_eq_false_iff] at h2
    refine ⟨⟨⟨h1, h2.1, by simpa using h2.2, by simpa using h3⟩, ⟨h4, h5, h6⟩, ⟨?_, ?_, ?_⟩, ?_, ?_, ?_⟩,
      (Except.ok.inj h13).symm⟩
    · intro a ha hc
      rw [Bool.and_eq_false_iff] at h7
      rcases h7 with h7 | h7
      · rw [List.any_eq_false] at h7; exact absurd hc (h7 a ha)
      · exact h7
    · intro hr a ha hc
      rw [hr, Bool.true_and, List.any_eq_false] at h8
      simpa [hc] using h8 a ha
    · intro hr a ha hc
      rw [hr, Bool.true_and, List.any_eq_false] at h9
      simpa [hc] using h9 a ha
    · intro va hva hu
      rw [hu, Bool.true_and, List.any_eq_false] at h10
      simpa using h10 _ (List.mem_map.mpr ⟨va, hva, rfl⟩)
    · intro va hva
      rw [List.any_eq_false] at h11
      simpa using h11 _ (List.mem_map.mpr ⟨va, hva, rfl⟩)
    · intro hr va hva
      rw [Bool.or_eq_false_iff, hr, Bool.true_and] at h12
      have := h12.2
      rw [List.any_eq_false] at this
      simpa using this _ (List.mem_map.mpr ⟨va, hva, rfl⟩)
  · rintro ⟨h, rfl⟩
    refine ⟨h.segment, ?_, by simpa using h.nonzero, _, ⟨h.mapped, h.permitted, h.page, rfl⟩, ?_, ?_, ?_, ?_, ?_, ?_, rfl⟩
    · rw [h.circular, Bool.false_or]; simpa using h.aligned
    · rw [Bool.and_eq_false_iff, List.any_eq_false]
      by_cases hs : protSetMissing s = true
      · left
        intro a ha hc
        have := h.setThere a ha hc
        rw [hs] at this; cases this
      · right; simpa using hs
    · by_cases hr : kind.readRange = true
      · rw [hr, Bool.true_and, List.any_eq_false]
        intro a ha hx
        rw [Bool.and_eq_true] at hx
        rw [h.read hr a ha hx.1] at hx
        exact absurd hx.2 (by decide)
      · simp [hr]
    · by_cases hr : kind.writes = true
      · rw [hr, Bool.true_and, List.any_eq_false]
        intro a ha hx
        rw [Bool.and_eq_true] at hx
        rw [h.write hr a ha hx.1] at hx
        exact absurd hx.2 (by decide)
      · simp [hr]
    · by_cases hu : isUser0 s = true
      · rw [hu, Bool.true_and, List.any_eq_false]
        intro pa hpa
        obtain ⟨va, hva, rfl⟩ := List.mem_map.mp hpa
        simp [h.peripheral va hva hu]
      · simp [hu]
    · rw [List.any_eq_false]
      intro pa hpa
      obtain ⟨va, hva, rfl⟩ := List.mem_map.mp hpa
      simp [h.window va hva]
    · have hd : ((modeBytes s m kind.size).map fun va => (physOf s va).getD 0#32).any (fun pa => !hasD (attrOf s pa)) = false := by
        rw [List.any_eq_false]; intro pa _; simp [hasD]
      rw [hd, Bool.false_or]
      by_cases hr : kind.reads = true
      · rw [hr, Bool.true_and, List.any_eq_false]
        intro pa hpa
        obtain ⟨va, hva, rfl⟩ := List.mem_map.mp hpa
        simp [h.bus hr va hva]
      · simp [hr]

/-! ### Loads, stores, read-modify-writes -/

/-- The guards before a load, store or read-modify-write pass exactly where its registers are in order. -/
theorem modeOk_iff (s : State) (m : Mode) :
    ModeOk s m ↔ modeOddPair m = false ∧ (modeWritesGlobal m = true → pswGw s.psw = true) :=
  ⟨fun h => ⟨h.even, h.global⟩, fun h => ⟨h.1, h.2⟩⟩

theorem loadShape_eq_ok (len : Len) (m : Mode) (kind : AccessKind) (odd global : Bool) (put : List Byte → State → State)
    (s t : State) :
    loadShape len m kind odd global put s = .ok t ↔
      odd = false ∧ (global = true → pswGw s.psw = true) ∧ ModeOk s m ∧ AccessOk s m kind ∧
      t = advance len (put (physRead s (accessAddrs s m kind.size)).1
        (applyUpdate (physRead s (accessAddrs s m kind.size)).2 (modeUpdate s m))) := by
  simp only [loadShape, bind_eq_ok, opd_eq_ok, grwp_eq_ok, checkData_eq_ok, modeOk_iff, Bool.or_eq_false_iff,
    Bool.or_eq_true, exists_and_left, exists_const]
  constructor
  · rintro ⟨⟨h1, h2⟩, h3, _, ⟨h4, rfl⟩, h5⟩
    exact ⟨h1, fun h => h3 (.inl h), ⟨h2, fun h => h3 (.inr h)⟩, h4, (Except.ok.inj h5).symm⟩
  · rintro ⟨h1, h2, ⟨h3, h4⟩, h5, rfl⟩
    exact ⟨⟨h1, h3⟩, fun h => h.elim h2 h4, _, ⟨h5, rfl⟩, rfl⟩

theorem storeShape_eq_ok (len : Len) (m : Mode) (kind : AccessKind) (odd : Bool) (bs : List Byte) (s t : State) :
    storeShape len m kind odd bs s = .ok t ↔
      odd = false ∧ ModeOk s m ∧ AccessOk s m kind ∧
      t = advance len (applyUpdate (physWrite s (accessAddrs s m kind.size) bs) (modeUpdate s m)) := by
  simp only [storeShape, bind_eq_ok, opd_eq_ok, grwp_eq_ok, checkData_eq_ok, modeOk_iff, Bool.or_eq_false_iff,
    exists_and_left, exists_const]
  constructor
  · rintro ⟨⟨h1, h2⟩, h3, _, ⟨h4, rfl⟩, h5⟩
    exact ⟨h1, ⟨h2, h3⟩, h4, (Except.ok.inj h5).symm⟩
  · rintro ⟨h1, ⟨h3, h4⟩, h5, rfl⟩
    exact ⟨⟨h1, h3⟩, h4, _, ⟨h5, rfl⟩, rfl⟩

theorem rmwShape_eq_ok (len : Len) (m : Mode) (kind : AccessKind) (odd : Bool) (new : List Byte → List Byte)
    (put : List Byte → State → State) (s t : State) :
    rmwShape len m kind odd new put s = .ok t ↔
      odd = false ∧ ModeOk s m ∧ AccessOk s m kind ∧
      t = advance len (put (physRead s (accessAddrs s m kind.size)).1
        (applyUpdate (physWrite (physRead s (accessAddrs s m kind.size)).2 (accessAddrs s m kind.size)
          (new (physRead s (accessAddrs s m kind.size)).1)) (modeUpdate s m))) := by
  simp only [rmwShape, bind_eq_ok, opd_eq_ok, grwp_eq_ok, checkData_eq_ok, modeOk_iff, Bool.or_eq_false_iff,
    exists_and_left, exists_const]
  constructor
  · rintro ⟨⟨h1, h2⟩, h3, _, ⟨h4, rfl⟩, h5⟩
    exact ⟨h1, ⟨h2, h3⟩, h4, (Except.ok.inj h5).symm⟩
  · rintro ⟨h1, ⟨h3, h4⟩, h5, rfl⟩
    exact ⟨⟨h1, h3⟩, h4, _, ⟨h5, rfl⟩, rfl⟩

end Sys2Proof.Machine
end

