-- ==== Sys2Proof/Laws/Physical.lean ====
section
/-!
SUPPORT. Sys2Proof/Laws/Physical.lean: what a read and a write of physical addresses do, and all they can change.
-/
namespace Sys2Proof.Machine

/-! ### Reads -/

theorem plainMemory_eq_true (s : State) (pa : Word) :
    plainMemory s pa = true ↔ hasP (attrOf s pa) = false ∧ nodeAt s pa = none ∧ busError s pa = false := by
  simp [plainMemory, and_assoc]

theorem isDevice_of_plain {s : State} {pa : Word} (h : plainMemory s pa = true) : isDevice s pa = false := by
  rw [plainMemory_eq_true] at h
  simp [isDevice, h.1]

theorem readByteAt_of_plain {s : State} {pa : Word} (h : plainMemory s pa = true) (k : Nat) :
    readByteAt s pa k = s.memByte pa := by
  rw [readByteAt, isDevice_of_plain h, ((plainMemory_eq_true s pa).mp h).2.1]
  rfl

/-- A read changes nothing but the device log and the count of free values. -/
theorem physRead_eq (s : State) (pas : List Word) :
    (physRead s pas).2 = { s with freeCount := (physRead s pas).2.freeCount, devices := (physRead s pas).2.devices } := by
  simp only [physRead]
  split <;> rfl

theorem physRead_length (s : State) (pas : List Word) : (physRead s pas).1.length = pas.length := by
  simp [physRead]

/-- A read of memory gives the bytes there and changes nothing. -/
theorem physRead_memory {s : State} {pas : List Word} (h : AllMemory s pas) :
    physRead s pas = (pas.map s.memByte, s) := by
  have hd : pas.any (isDevice s) = false := by
    rw [List.any_eq_false]
    intro pa hpa
    simp [isDevice_of_plain (h pa hpa)]
  have hb : ((pas.zip (List.range pas.length)).map fun p => readByteAt s p.1 p.2) = pas.map s.memByte := by
    apply List.ext_getElem
    · simp
    · intro k h1 h2
      simp only [List.getElem_map, List.getElem_zip]
      exact readByteAt_of_plain (h _ (List.getElem_mem _)) _
  simp only [physRead, hd, hb]
  rfl

/-! ### Writes -/

/-- A node's change leaves all but the SRC registers alone. -/
theorem setNode_eq (s : State) (k : Nat) (n : Src) :
    setNode s k n = { s with cpuSrc := (setNode s k n).cpuSrc, sbSrc := (setNode s k n).sbSrc,
                             extraSrc := (setNode s k n).extraSrc } := by
  unfold setNode
  split
  · rfl
  · split
    · split <;> rfl
    · rfl

/-- Whether a node is there does not depend on its contents. -/
theorem setNode_extraSrc_length (s : State) (k : Nat) (n : Src) : (setNode s k n).extraSrc.length = s.extraSrc.length := by
  unfold setNode
  split
  · rfl
  · split
    · split <;> rfl
    · simp

theorem writeNode_eq (sel : List (Word × Byte)) (s : State) (k : Nat) :
    writeNode sel s k = s ∨ ∃ n, writeNode sel s k = setNode s k n := by
  unfold writeNode
  split
  · exact .inl rfl
  · split
    · exact .inr ⟨_, rfl⟩
    · exact .inl rfl

/-- The bytes that go to memory are written there, nothing else changes. -/
theorem writeMemory_eq (s : State) (pas : List Word) (bs : List Byte) :
    writeMemory s pas bs = { s with mem := (writeMemory s pas bs).mem } := State.setMemBytes_eq _ _ _

theorem wf_writeMemory (s : State) (pas : List Word) (bs : List Byte) (h : Memory.wf s.mem = true) :
    Memory.wf (writeMemory s pas bs).mem = true := State.wf_setMemBytes _ _ _ h

/-- A write leaves every address it does not name alone. -/
theorem memByte_writeMemory_other (s : State) (pas : List Word) (bs : List Byte) (y : Word) (h : y ∉ pas) :
    (writeMemory s pas bs).memByte y = s.memByte y := by
  apply State.memByte_setMemBytes_other
  intro hy
  obtain ⟨p, hp, rfl⟩ := List.mem_map.mp hy
  exact h (List.of_mem_zip (List.mem_filter.mp hp).1).1

theorem writeMemory_memory {s : State} {pas : List Word} (h : AllMemory s pas) (bs : List Byte) :
    writeMemory s pas bs = s.setMemBytes pas bs := by
  have hf : (pas.zip bs).filter (fun p => plainMemory s p.1) = pas.zip bs := by
    rw [List.filter_eq_self]
    intro p hp
    exact h _ (List.of_mem_zip hp).1
  simp only [writeMemory, hf, State.setMemBytes]
  congr 1
  have := List.zip_unzip (pas.zip bs)
  rwa [List.unzip_eq_map] at this

/-- A state without what a bus access can change: memory, the SRC registers, `dae_pending`, the device log, the count of
free values. Two states equal under it agree in every other field. -/
def State.eraseBus (s : State) : State :=
  { s with mem := [], cpuSrc := Vector.replicate 4 Src.reset, sbSrc := Vector.replicate 4 Src.reset, extraSrc := [],
           daePending := false, freeCount := 0, devices := [] }

theorem setNode_eraseBus (s : State) (k : Nat) (n : Src) : (setNode s k n).eraseBus = s.eraseBus := by
  unfold setNode
  split
  · rfl
  · split
    · split <;> rfl
    · rfl

theorem writeNode_eraseBus (sel : List (Word × Byte)) (s : State) (k : Nat) :
    (writeNode sel s k).eraseBus = s.eraseBus ∧ (writeNode sel s k).mem = s.mem ∧
    (writeNode sel s k).extraSrc.length = s.extraSrc.length := by
  rcases writeNode_eq sel s k with h | ⟨n, h⟩
  · simp [h]
  · rw [h]
    exact ⟨setNode_eraseBus s k n, by rw [setNode_eq], setNode_extraSrc_length s k n⟩

theorem foldl_writeNode_eraseBus (sel : List (Word × Byte)) (ks : List Nat) (s : State) :
    (ks.foldl (writeNode sel) s).eraseBus = s.eraseBus ∧ (ks.foldl (writeNode sel) s).mem = s.mem ∧
    (ks.foldl (writeNode sel) s).extraSrc.length = s.extraSrc.length := by
  induction ks generalizing s with
  | nil => exact ⟨rfl, rfl, rfl⟩
  | cons k ks ih =>
    simp only [List.foldl_cons]
    obtain ⟨h1, h2, h3⟩ := ih (writeNode sel s k)
    obtain ⟨g1, g2, g3⟩ := writeNode_eraseBus sel s k
    exact ⟨h1.trans g1, h2.trans g2, h3.trans g3⟩

theorem writeNodes_eraseBus (s : State) (pas : List Word) (bs : List Byte) (t : State) :
    (writeNodes s pas bs t).eraseBus = t.eraseBus ∧ (writeNodes s pas bs t).mem = t.mem ∧
    (writeNodes s pas bs t).extraSrc.length = t.extraSrc.length := by
  unfold writeNodes
  split
  · exact foldl_writeNode_eraseBus _ _ _
  · exact ⟨rfl, rfl, rfl⟩

theorem writeDevice_eraseBus (s : State) (pas : List Word) (bs : List Byte) (t : State) :
    (writeDevice s pas bs t).eraseBus = t.eraseBus ∧ (writeDevice s pas bs t).mem = t.mem ∧
    (writeDevice s pas bs t).extraSrc = t.extraSrc := by
  unfold writeDevice
  split <;> exact ⟨rfl, rfl, rfl⟩

/-- A write changes memory, the SRC registers, `dae_pending`, the device log and the count of free values, and nothing
else; memory as `writeMemory` says. -/
theorem physWrite_eraseBus (s : State) (pas : List Word) (bs : List Byte) :
    (physWrite s pas bs).eraseBus = s.eraseBus ∧ (physWrite s pas bs).mem = (writeMemory s pas bs).mem ∧
    (physWrite s pas bs).extraSrc.length = s.extraSrc.length := by
  obtain ⟨h1, h2, h3⟩ := writeNodes_eraseBus s pas bs (writeMemory s pas bs)
  obtain ⟨g1, g2, g3⟩ := writeDevice_eraseBus s pas bs (writeNodes s pas bs (writeMemory s pas bs))
  refine ⟨(show _ = _ from ?_), g2.trans h2, ?_⟩
  · calc (physWrite s pas bs).eraseBus
        = (writeDevice s pas bs (writeNodes s pas bs (writeMemory s pas bs))).eraseBus := rfl
      _ = (writeMemory s pas bs).eraseBus := g1.trans h1
      _ = s.eraseBus := by rw [writeMemory_eq]; rfl
  · show (writeDevice s pas bs _).extraSrc.length = _
    rw [g3, h3, writeMemory_eq]

theorem physRead_eraseBus (s : State) (pas : List Word) :
    (physRead s pas).2.eraseBus = s.eraseBus ∧ (physRead s pas).2.mem = s.mem ∧
    (physRead s pas).2.extraSrc = s.extraSrc := by
  rw [physRead_eq]; exact ⟨rfl, rfl, rfl⟩

/-- A write keeps the canonical form. -/
theorem wf_physWrite (s : State) (pas : List Word) (bs : List Byte) (h : Memory.wf s.mem = true) :
    Memory.wf (physWrite s pas bs).mem = true := by
  rw [(physWrite_eraseBus s pas bs).2.1]; exact wf_writeMemory s pas bs h

/-- A write leaves every byte it does not name alone. -/
theorem memByte_physWrite_other (s : State) (pas : List Word) (bs : List Byte) (y : Word) (h : y ∉ pas) :
    (physWrite s pas bs).memByte y = s.memByte y := by
  unfold State.memByte
  rw [(physWrite_eraseBus s pas bs).2.1]
  exact memByte_writeMemory_other s pas bs y h

/-- A write of memory is the write of its bytes. -/
theorem physWrite_memory {s : State} {pas : List Word} (h : AllMemory s pas) (bs : List Byte) :
    physWrite s pas bs = s.setMemBytes pas bs := by
  have hk : pas.any (fun pa => (nodeAt s pa).isSome) = false := by
    rw [List.any_eq_false]; intro pa hpa; simp [((plainMemory_eq_true s pa).mp (h pa hpa)).2.1]
  have hd : pas.any (isDevice s) = false := by
    rw [List.any_eq_false]; intro pa hpa; simp [isDevice_of_plain (h pa hpa)]
  have hb : pas.any (busError s) = false := by
    rw [List.any_eq_false]; intro pa hpa; simp [((plainMemory_eq_true s pa).mp (h pa hpa)).2.2]
  simp only [physWrite, writeError, writeDevice, writeNodes, hk, hd, hb, if_false, Bool.false_eq_true,
    writeMemory_memory h, Bool.or_false]

/-! ### Every other field -/

section fields

variable (s : State) (pas : List Word) (bs : List Byte)

@[simp] theorem physWrite_d : (physWrite s pas bs).d = s.d := (congrArg State.d (physWrite_eraseBus s pas bs).1 :)
@[simp] theorem physRead_d : (physRead s pas).2.d = s.d := (congrArg State.d (physRead_eraseBus s pas).1 :)
@[simp] theorem physWrite_a : (physWrite s pas bs).a = s.a := (congrArg State.a (physWrite_eraseBus s pas bs).1 :)
@[simp] theorem physRead_a : (physRead s pas).2.a = s.a := (congrArg State.a (physRead_eraseBus s pas).1 :)
@[simp] theorem physWrite_pc : (physWrite s pas bs).pc = s.pc := (congrArg State.pc (physWrite_eraseBus s pas bs).1 :)
@[simp] theorem physRead_pc : (physRead s pas).2.pc = s.pc := (congrArg State.pc (physRead_eraseBus s pas).1 :)
@[simp] theorem physWrite_psw : (physWrite s pas bs).psw = s.psw := (congrArg State.psw (physWrite_eraseBus s pas bs).1 :)
@[simp] theorem physRead_psw : (physRead s pas).2.psw = s.psw := (congrArg State.psw (physRead_eraseBus s pas).1 :)
@[simp] theorem physWrite_pcxi : (physWrite s pas bs).pcxi = s.pcxi := (congrArg State.pcxi (physWrite_eraseBus s pas bs).1 :)
@[simp] theorem physRead_pcxi : (physRead s pas).2.pcxi = s.pcxi := (congrArg State.pcxi (physRead_eraseBus s pas).1 :)
@[simp] theorem physWrite_fcx : (physWrite s pas bs).fcx = s.fcx := (congrArg State.fcx (physWrite_eraseBus s pas bs).1 :)
@[simp] theorem physRead_fcx : (physRead s pas).2.fcx = s.fcx := (congrArg State.fcx (physRead_eraseBus s pas).1 :)
@[simp] theorem physWrite_lcx : (physWrite s pas bs).lcx = s.lcx := (congrArg State.lcx (physWrite_eraseBus s pas bs).1 :)
@[simp] theorem physRead_lcx : (physRead s pas).2.lcx = s.lcx := (congrArg State.lcx (physRead_eraseBus s pas).1 :)
@[simp] theorem physWrite_isp : (physWrite s pas bs).isp = s.isp := (congrArg State.isp (physWrite_eraseBus s pas bs).1 :)
@[simp] theorem physRead_isp : (physRead s pas).2.isp = s.isp := (congrArg State.isp (physRead_eraseBus s pas).1 :)
@[simp] theorem physWrite_icr : (physWrite s pas bs).icr = s.icr := (congrArg State.icr (physWrite_eraseBus s pas bs).1 :)
@[simp] theorem physRead_icr : (physRead s pas).2.icr = s.icr := (congrArg State.icr (physRead_eraseBus s pas).1 :)
@[simp] theorem physWrite_biv : (physWrite s pas bs).biv = s.biv := (congrArg State.biv (physWrite_eraseBus s pas bs).1 :)
@[simp] theorem physRead_biv : (physRead s pas).2.biv = s.biv := (congrArg State.biv (physRead_eraseBus s pas).1 :)
@[simp] theorem physWrite_btv : (physWrite s pas bs).btv = s.btv := (congrArg State.btv (physWrite_eraseBus s pas bs).1 :)
@[simp] theorem physRead_btv : (physRead s pas).2.btv = s.btv := (congrArg State.btv (physRead_eraseBus s pas).1 :)
@[simp] theorem physWrite_syscon : (physWrite s pas bs).syscon = s.syscon := (congrArg State.syscon (physWrite_eraseBus s pas bs).1 :)
@[simp] theorem physRead_syscon : (physRead s pas).2.syscon = s.syscon := (congrArg State.syscon (physRead_eraseBus s pas).1 :)
@[simp] theorem physWrite_prot : (physWrite s pas bs).prot = s.prot := (congrArg State.prot (physWrite_eraseBus s pas bs).1 :)
@[simp] theorem physRead_prot : (physRead s pas).2.prot = s.prot := (congrArg State.prot (physRead_eraseBus s pas).1 :)
@[simp] theorem physWrite_mmuCon : (physWrite s pas bs).mmuCon = s.mmuCon := (congrArg State.mmuCon (physWrite_eraseBus s pas bs).1 :)
@[simp] theorem physRead_mmuCon : (physRead s pas).2.mmuCon = s.mmuCon := (congrArg State.mmuCon (physRead_eraseBus s pas).1 :)
@[simp] theorem physWrite_mmuAsi : (physWrite s pas bs).mmuAsi = s.mmuAsi := (congrArg State.mmuAsi (physWrite_eraseBus s pas bs).1 :)
@[simp] theorem physRead_mmuAsi : (physRead s pas).2.mmuAsi = s.mmuAsi := (congrArg State.mmuAsi (physRead_eraseBus s pas).1 :)
@[simp] theorem physWrite_mmuTva : (physWrite s pas bs).mmuTva = s.mmuTva := (congrArg State.mmuTva (physWrite_eraseBus s pas bs).1 :)
@[simp] theorem physRead_mmuTva : (physRead s pas).2.mmuTva = s.mmuTva := (congrArg State.mmuTva (physRead_eraseBus s pas).1 :)
@[simp] theorem physWrite_mmuTpa : (physWrite s pas bs).mmuTpa = s.mmuTpa := (congrArg State.mmuTpa (physWrite_eraseBus s pas bs).1 :)
@[simp] theorem physRead_mmuTpa : (physRead s pas).2.mmuTpa = s.mmuTpa := (congrArg State.mmuTpa (physRead_eraseBus s pas).1 :)
@[simp] theorem physWrite_mmuTpx : (physWrite s pas bs).mmuTpx = s.mmuTpx := (congrArg State.mmuTpx (physWrite_eraseBus s pas bs).1 :)
@[simp] theorem physRead_mmuTpx : (physRead s pas).2.mmuTpx = s.mmuTpx := (congrArg State.mmuTpx (physRead_eraseBus s pas).1 :)
@[simp] theorem physWrite_mmuTfa : (physWrite s pas bs).mmuTfa = s.mmuTfa := (congrArg State.mmuTfa (physWrite_eraseBus s pas bs).1 :)
@[simp] theorem physRead_mmuTfa : (physRead s pas).2.mmuTfa = s.mmuTfa := (congrArg State.mmuTfa (physRead_eraseBus s pas).1 :)
@[simp] theorem physWrite_tlbA : (physWrite s pas bs).tlbA = s.tlbA := (congrArg State.tlbA (physWrite_eraseBus s pas bs).1 :)
@[simp] theorem physRead_tlbA : (physRead s pas).2.tlbA = s.tlbA := (congrArg State.tlbA (physRead_eraseBus s pas).1 :)
@[simp] theorem physWrite_tlbB : (physWrite s pas bs).tlbB = s.tlbB := (congrArg State.tlbB (physWrite_eraseBus s pas bs).1 :)
@[simp] theorem physRead_tlbB : (physRead s pas).2.tlbB = s.tlbB := (congrArg State.tlbB (physRead_eraseBus s pas).1 :)
@[simp] theorem physWrite_dbgsr : (physWrite s pas bs).dbgsr = s.dbgsr := (congrArg State.dbgsr (physWrite_eraseBus s pas bs).1 :)
@[simp] theorem physRead_dbgsr : (physRead s pas).2.dbgsr = s.dbgsr := (congrArg State.dbgsr (physRead_eraseBus s pas).1 :)
@[simp] theorem physWrite_exevt : (physWrite s pas bs).exevt = s.exevt := (congrArg State.exevt (physWrite_eraseBus s pas bs).1 :)
@[simp] theorem physRead_exevt : (physRead s pas).2.exevt = s.exevt := (congrArg State.exevt (physRead_eraseBus s pas).1 :)
@[simp] theorem physWrite_crevt : (physWrite s pas bs).crevt = s.crevt := (congrArg State.crevt (physWrite_eraseBus s pas bs).1 :)
@[simp] theorem physRead_crevt : (physRead s pas).2.crevt = s.crevt := (congrArg State.crevt (physRead_eraseBus s pas).1 :)
@[simp] theorem physWrite_swevt : (physWrite s pas bs).swevt = s.swevt := (congrArg State.swevt (physWrite_eraseBus s pas bs).1 :)
@[simp] theorem physRead_swevt : (physRead s pas).2.swevt = s.swevt := (congrArg State.swevt (physRead_eraseBus s pas).1 :)
@[simp] theorem physWrite_trEvt : (physWrite s pas bs).trEvt = s.trEvt := (congrArg State.trEvt (physWrite_eraseBus s pas bs).1 :)
@[simp] theorem physRead_trEvt : (physRead s pas).2.trEvt = s.trEvt := (congrArg State.trEvt (physRead_eraseBus s pas).1 :)
@[simp] theorem physWrite_dms : (physWrite s pas bs).dms = s.dms := (congrArg State.dms (physWrite_eraseBus s pas bs).1 :)
@[simp] theorem physRead_dms : (physRead s pas).2.dms = s.dms := (congrArg State.dms (physRead_eraseBus s pas).1 :)
@[simp] theorem physWrite_dcx : (physWrite s pas bs).dcx = s.dcx := (congrArg State.dcx (physWrite_eraseBus s pas bs).1 :)
@[simp] theorem physRead_dcx : (physRead s pas).2.dcx = s.dcx := (congrArg State.dcx (physRead_eraseBus s pas).1 :)
@[simp] theorem physWrite_endinit : (physWrite s pas bs).endinit = s.endinit := (congrArg State.endinit (physWrite_eraseBus s pas bs).1 :)
@[simp] theorem physRead_endinit : (physRead s pas).2.endinit = s.endinit := (congrArg State.endinit (physRead_eraseBus s pas).1 :)
@[simp] theorem physWrite_nmiPending : (physWrite s pas bs).nmiPending = s.nmiPending := (congrArg State.nmiPending (physWrite_eraseBus s pas bs).1 :)
@[simp] theorem physRead_nmiPending : (physRead s pas).2.nmiPending = s.nmiPending := (congrArg State.nmiPending (physRead_eraseBus s pas).1 :)
@[simp] theorem physWrite_fcdPending : (physWrite s pas bs).fcdPending = s.fcdPending := (congrArg State.fcdPending (physWrite_eraseBus s pas bs).1 :)
@[simp] theorem physRead_fcdPending : (physRead s pas).2.fcdPending = s.fcdPending := (congrArg State.fcdPending (physRead_eraseBus s pas).1 :)
@[simp] theorem physWrite_platform : (physWrite s pas bs).platform = s.platform := (congrArg State.platform (physWrite_eraseBus s pas bs).1 :)
@[simp] theorem physRead_platform : (physRead s pas).2.platform = s.platform := (congrArg State.platform (physRead_eraseBus s pas).1 :)
@[simp] theorem physWrite_inputs : (physWrite s pas bs).inputs = s.inputs := (congrArg State.inputs (physWrite_eraseBus s pas bs).1 :)
@[simp] theorem physRead_inputs : (physRead s pas).2.inputs = s.inputs := (congrArg State.inputs (physRead_eraseBus s pas).1 :)
@[simp] theorem physWrite_recentMaps : (physWrite s pas bs).recentMaps = s.recentMaps := (congrArg State.recentMaps (physWrite_eraseBus s pas bs).1 :)
@[simp] theorem physRead_recentMaps : (physRead s pas).2.recentMaps = s.recentMaps := (congrArg State.recentMaps (physRead_eraseBus s pas).1 :)
@[simp] theorem physWrite_breakOuts : (physWrite s pas bs).breakOuts = s.breakOuts := (congrArg State.breakOuts (physWrite_eraseBus s pas bs).1 :)
@[simp] theorem physRead_breakOuts : (physRead s pas).2.breakOuts = s.breakOuts := (congrArg State.breakOuts (physRead_eraseBus s pas).1 :)
@[simp] theorem physWrite_completed : (physWrite s pas bs).completed = s.completed := (congrArg State.completed (physWrite_eraseBus s pas bs).1 :)
@[simp] theorem physRead_completed : (physRead s pas).2.completed = s.completed := (congrArg State.completed (physRead_eraseBus s pas).1 :)
@[simp] theorem physRead_mem : (physRead s pas).2.mem = s.mem := (physRead_eraseBus s pas).2.1

@[simp] theorem writeMemory_d : (writeMemory s pas bs).d = s.d := (congrArg State.d (writeMemory_eq s pas bs) :)
@[simp] theorem writeMemory_a : (writeMemory s pas bs).a = s.a := (congrArg State.a (writeMemory_eq s pas bs) :)
@[simp] theorem writeMemory_pc : (writeMemory s pas bs).pc = s.pc := (congrArg State.pc (writeMemory_eq s pas bs) :)
@[simp] theorem writeMemory_psw : (writeMemory s pas bs).psw = s.psw := (congrArg State.psw (writeMemory_eq s pas bs) :)
@[simp] theorem writeMemory_pcxi : (writeMemory s pas bs).pcxi = s.pcxi := (congrArg State.pcxi (writeMemory_eq s pas bs) :)
@[simp] theorem writeMemory_fcx : (writeMemory s pas bs).fcx = s.fcx := (congrArg State.fcx (writeMemory_eq s pas bs) :)
@[simp] theorem writeMemory_lcx : (writeMemory s pas bs).lcx = s.lcx := (congrArg State.lcx (writeMemory_eq s pas bs) :)
@[simp] theorem writeMemory_isp : (writeMemory s pas bs).isp = s.isp := (congrArg State.isp (writeMemory_eq s pas bs) :)
@[simp] theorem writeMemory_icr : (writeMemory s pas bs).icr = s.icr := (congrArg State.icr (writeMemory_eq s pas bs) :)
@[simp] theorem writeMemory_biv : (writeMemory s pas bs).biv = s.biv := (congrArg State.biv (writeMemory_eq s pas bs) :)
@[simp] theorem writeMemory_btv : (writeMemory s pas bs).btv = s.btv := (congrArg State.btv (writeMemory_eq s pas bs) :)
@[simp] theorem writeMemory_syscon : (writeMemory s pas bs).syscon = s.syscon := (congrArg State.syscon (writeMemory_eq s pas bs) :)
@[simp] theorem writeMemory_prot : (writeMemory s pas bs).prot = s.prot := (congrArg State.prot (writeMemory_eq s pas bs) :)
@[simp] theorem writeMemory_mmuCon : (writeMemory s pas bs).mmuCon = s.mmuCon := (congrArg State.mmuCon (writeMemory_eq s pas bs) :)
@[simp] theorem writeMemory_mmuAsi : (writeMemory s pas bs).mmuAsi = s.mmuAsi := (congrArg State.mmuAsi (writeMemory_eq s pas bs) :)
@[simp] theorem writeMemory_mmuTva : (writeMemory s pas bs).mmuTva = s.mmuTva := (congrArg State.mmuTva (writeMemory_eq s pas bs) :)
@[simp] theorem writeMemory_mmuTpa : (writeMemory s pas bs).mmuTpa = s.mmuTpa := (congrArg State.mmuTpa (writeMemory_eq s pas bs) :)
@[simp] theorem writeMemory_mmuTpx : (writeMemory s pas bs).mmuTpx = s.mmuTpx := (congrArg State.mmuTpx (writeMemory_eq s pas bs) :)
@[simp] theorem writeMemory_mmuTfa : (writeMemory s pas bs).mmuTfa = s.mmuTfa := (congrArg State.mmuTfa (writeMemory_eq s pas bs) :)
@[simp] theorem writeMemory_tlbA : (writeMemory s pas bs).tlbA = s.tlbA := (congrArg State.tlbA (writeMemory_eq s pas bs) :)
@[simp] theorem writeMemory_tlbB : (writeMemory s pas bs).tlbB = s.tlbB := (congrArg State.tlbB (writeMemory_eq s pas bs) :)
@[simp] theorem writeMemory_dbgsr : (writeMemory s pas bs).dbgsr = s.dbgsr := (congrArg State.dbgsr (writeMemory_eq s pas bs) :)
@[simp] theorem writeMemory_exevt : (writeMemory s pas bs).exevt = s.exevt := (congrArg State.exevt (writeMemory_eq s pas bs) :)
@[simp] theorem writeMemory_crevt : (writeMemory s pas bs).crevt = s.crevt := (congrArg State.crevt (writeMemory_eq s pas bs) :)
@[simp] theorem writeMemory_swevt : (writeMemory s pas bs).swevt = s.swevt := (congrArg State.swevt (writeMemory_eq s pas bs) :)
@[simp] theorem writeMemory_trEvt : (writeMemory s pas bs).trEvt = s.trEvt := (congrArg State.trEvt (writeMemory_eq s pas bs) :)
@[simp] theorem writeMemory_dms : (writeMemory s pas bs).dms = s.dms := (congrArg State.dms (writeMemory_eq s pas bs) :)
@[simp] theorem writeMemory_dcx : (writeMemory s pas bs).dcx = s.dcx := (congrArg State.dcx (writeMemory_eq s pas bs) :)
@[simp] theorem writeMemory_cpuSrc : (writeMemory s pas bs).cpuSrc = s.cpuSrc := (congrArg State.cpuSrc (writeMemory_eq s pas bs) :)
@[simp] theorem writeMemory_sbSrc : (writeMemory s pas bs).sbSrc = s.sbSrc := (congrArg State.sbSrc (writeMemory_eq s pas bs) :)
@[simp] theorem writeMemory_extraSrc : (writeMemory s pas bs).extraSrc = s.extraSrc := (congrArg State.extraSrc (writeMemory_eq s pas bs) :)
@[simp] theorem writeMemory_endinit : (writeMemory s pas bs).endinit = s.endinit := (congrArg State.endinit (writeMemory_eq s pas bs) :)
@[simp] theorem writeMemory_nmiPending : (writeMemory s pas bs).nmiPending = s.nmiPending := (congrArg State.nmiPending (writeMemory_eq s pas bs) :)
@[simp] theorem writeMemory_daePending : (writeMemory s pas bs).daePending = s.daePending := (congrArg State.daePending (writeMemory_eq s pas bs) :)
@[simp] theorem writeMemory_fcdPending : (writeMemory s pas bs).fcdPending = s.fcdPending := (congrArg State.fcdPending (writeMemory_eq s pas bs) :)
@[simp] theorem writeMemory_platform : (writeMemory s pas bs).platform = s.platform := (congrArg State.platform (writeMemory_eq s pas bs) :)
@[simp] theorem writeMemory_inputs : (writeMemory s pas bs).inputs = s.inputs := (congrArg State.inputs (writeMemory_eq s pas bs) :)
@[simp] theorem writeMemory_freeCount : (writeMemory s pas bs).freeCount = s.freeCount := (congrArg State.freeCount (writeMemory_eq s pas bs) :)
@[simp] theorem writeMemory_recentMaps : (writeMemory s pas bs).recentMaps = s.recentMaps := (congrArg State.recentMaps (writeMemory_eq s pas bs) :)
@[simp] theorem writeMemory_breakOuts : (writeMemory s pas bs).breakOuts = s.breakOuts := (congrArg State.breakOuts (writeMemory_eq s pas bs) :)
@[simp] theorem writeMemory_devices : (writeMemory s pas bs).devices = s.devices := (congrArg State.devices (writeMemory_eq s pas bs) :)
@[simp] theorem writeMemory_completed : (writeMemory s pas bs).completed = s.completed := (congrArg State.completed (writeMemory_eq s pas bs) :)

end fields

theorem writeNode_daePending (sel : List (Word × Byte)) (s : State) (k : Nat) :
    (writeNode sel s k).daePending = s.daePending := by
  rcases writeNode_eq sel s k with h | ⟨n, h⟩
  · rw [h]
  · rw [h, setNode_eq]

theorem foldl_writeNode_daePending (sel : List (Word × Byte)) (ks : List Nat) (s : State) :
    (ks.foldl (writeNode sel) s).daePending = s.daePending := by
  induction ks generalizing s with
  | nil => rfl
  | cons k ks ih => rw [List.foldl_cons, ih, writeNode_daePending]

/-- A write asks for a DAE exactly where the bus reports an error. -/
@[simp] theorem physWrite_daePending (s : State) (pas : List Word) (bs : List Byte) :
    (physWrite s pas bs).daePending = (s.daePending || pas.any (busError s)) := by
  simp only [physWrite, writeError, writeDevice, writeNodes]
  congr 1
  split <;> split <;> simp [foldl_writeNode_daePending]

/-! ### The update of an addressing mode -/

/-- A mode's update changes address registers alone. -/
theorem applyUpdate_eq (s : State) (u : Option (Fin 16 × Word)) :
    applyUpdate s u = { s with a := (applyUpdate s u).a } := by
  cases u with
  | none => rfl
  | some p => rfl

@[simp] theorem applyUpdate_none (s : State) : applyUpdate s none = s := rfl
@[simp] theorem applyUpdate_some (s : State) (r : Fin 16) (v : Word) : applyUpdate s (some (r, v)) = s.setA r v := rfl

/-- A mode updates the register it names as its target. -/
theorem modeUpdate_fst (s : State) (m : Mode) : (modeUpdate s m).map Prod.fst = modeTarget m := by cases m <;> rfl

end Sys2Proof.Machine
end

