-- ==== Sys2Proof/Laws/Access.lean ====
section
/-!
SUPPORT. Sys2Proof/Laws/Access.lean: the shape of every data access, and when one to plain memory is in order
(20_memory R175).
-/
namespace Sys2Proof.Machine

/-- Every instruction with a data access ends in the same checks, in the same order: OPD, GRWP, then those of R175. -/
theorem exec_dataAccess (i : Instr) (x : DataAccess) (s : State) (hx : dataAccess i = some x) :
    ∃ f : List Word → Res, exec i s = finish s (do
      opd (x.odd || modeOddPair x.mode)
      grwp s (x.global || modeWritesGlobal x.mode)
      let pas ← checkData s x.mode x.kind
      f pas) ∧ ∀ pas, ∃ u, f pas = .ok u := by
  cases i <;> simp only [dataAccess, Option.some.injEq, reduceCtorEq] at hx <;> subst hx
  case stA len a m =>
    refine ⟨fun pas => .ok (useStored m a (advance len (applyUpdate (physWrite s pas (wordBytes (storedAddr s m a)))
      (modeUpdate s m)))), ?_, fun _ => ⟨_, rfl⟩⟩
    simp only [exec, execStA, storeShape, Bool.false_or]
    cases opd _ <;> first | rfl | skip
    cases grwp s _ <;> first | rfl | skip
    simp only [ok_bind]
    cases checkData s _ _ <;> rfl
  case stDa len a m =>
    refine ⟨fun pas => .ok (useStored m a (useStored m (pairOdd a) (advance len (applyUpdate
      (physWrite s pas (wordsBytes [storedAddr s m a, storedAddr s m (pairOdd a)])) (modeUpdate s m))))), ?_,
      fun _ => ⟨_, rfl⟩⟩
    simp only [exec, execStDa, storeShape, Bool.false_or]
    cases opd _ <;> first | rfl | skip
    cases grwp s _ <;> first | rfl | skip
    simp only [ok_bind]
    cases checkData s _ _ <;> rfl
  all_goals exact ⟨_, rfl, fun _ => ⟨_, rfl⟩⟩

/-- With translation off no address uses a TTE. -/
theorem usesPte_of_physical {s : State} (h : virtualMode s = false) (va : Word) : usesPte s va = false := by
  simp [usesPte, h]

/-- An untranslated access without range protection to bytes that are neither peripheral, nor in the CSFR window, nor in
bus error is in order where its address is. -/
theorem accessOk_of_plain {s : State} {m : Mode} {kind : AccessKind} (hv : virtualMode s = false)
    (hp : sysProten s.syscon = false) (hs : memTrap s m kind.size = false) (hc : circMisaligned s m kind.size = false)
    (ha : (modeEa s m).toNat % alignOf s kind (modeEa s m) = 0) (hz : modeEa s m ≠ 0)
    (hb : ((modeBytes s m kind.size).all fun pa => !hasP (attrOf s pa) && !inCsfrWindow s pa && !busError s pa) = true) :
    AccessOk s m kind := by
  have hu (va : Word) : usesPte s va = false := usesPte_of_physical hv va
  have phys (va : Word) : physOf s va = some va := by simp [physOf, hu]
  have bytes (va : Word) (h : va ∈ modeBytes s m kind.size) :
      hasP (attrOf s va) = false ∧ inCsfrWindow s va = false ∧ busError s va = false := by
    have := List.all_eq_true.mp hb va h
    simpa [and_assoc] using this
  have hh (a : Word) : headChecked s a = false := by simp [headChecked, rangeChecked, hp]
  exact {
    segment := hs, circular := hc, aligned := ha, nonzero := hz
    mapped := fun va _ => by rw [phys]; rfl
    permitted := fun va _ => ⟨by simp [pteDenies, hu], by simp [upperDenied, hv]⟩
    page := fun va _ h => by simp [hu] at h
    setThere := fun a _ h => by simp [hh] at h
    read := fun _ a _ h => by simp [hh] at h
    write := fun _ a _ h => by simp [hh] at h
    peripheral := fun va h _ => by rw [phys]; exact (bytes va h).1
    window := fun va h => by rw [phys]; exact (bytes va h).2.1
    bus := fun _ va h => by rw [phys]; exact (bytes va h).2.2 }

end Sys2Proof.Machine
end

