-- ==== Sys2Proof/Laws/Bits.lean ====
section
/-!
SUPPORT. Sys2Proof/Laws/Bits.lean: what the bit-field operations do, bit by bit, and the flag words they build.
-/
namespace Sys2Proof.Machine

/-- A replaced field: its own bits inside, the old ones outside. -/
theorem getLsbD_setField {n : Nat} (w : Word) (lo : Nat) (v : BitVec n) (i : Nat) :
    (setField w lo v).getLsbD i =
      if lo ≤ i ∧ i < lo + n then (decide (i < 32) && v.getLsbD (i - lo)) else w.getLsbD i := by
  simp only [setField, BitVec.getLsbD_or, BitVec.getLsbD_and, BitVec.getLsbD_not, BitVec.getLsbD_shiftLeft,
    BitVec.getLsbD_setWidth, BitVec.getLsbD_allOnes]
  by_cases h32 : i < 32
  · by_cases h1 : lo ≤ i
    · by_cases h2 : i < lo + n
      · have : i - lo < n := by omega
        have h3 : i - lo < 32 := by omega
        have h4 : ¬ i < lo := by omega
        simp [h32, h1, h2, this, h3, h4]
      · have : ¬ i - lo < n := by omega
        have h3 : i - lo < 32 := by omega
        have h4 : ¬ i < lo := by omega
        have h5 : v.getLsbD (i - lo) = false := BitVec.getLsbD_of_ge _ _ (by omega)
        simp [h32, h2, this, h3, h4, h5]
    · have h4 : i < lo := by omega
      simp [h32, h1, h4]
  · have h5 : w.getLsbD i = false := BitVec.getLsbD_of_ge _ _ (by omega)
    simp [h32, h5]

/-- One bit set: that bit, and every other as before. -/
theorem getLsbD_setBit (w : Word) (k : Nat) (b : Bool) (i : Nat) :
    (setBit w k b).getLsbD i = if i = k then (decide (i < 32) && b) else w.getLsbD i := by
  rw [setBit, getLsbD_setField]
  by_cases h : i = k
  · subst h; simp
  · rw [if_neg (by omega), if_neg h]

/-- A field that a field was just written to reads back. -/
theorem extract_setField_same {n : Nat} (w : Word) (lo : Nat) (v : BitVec n) (h : lo + n ≤ 32) :
    (setField w lo v).extractLsb' lo n = v := by
  apply BitVec.eq_of_getLsbD_eq
  intro i hi
  rw [BitVec.getLsbD_extractLsb', getLsbD_setField]
  have : lo + i < 32 := by omega
  simp [hi, this]

/-- A field that does not meet the one written keeps its value. -/
theorem extract_setField_other {n : Nat} (w : Word) (lo : Nat) (v : BitVec n) (lo' m : Nat)
    (h : lo' + m ≤ lo ∨ lo + n ≤ lo') : (setField w lo v).extractLsb' lo' m = w.extractLsb' lo' m := by
  apply BitVec.eq_of_getLsbD_eq
  intro i hi
  rw [BitVec.getLsbD_extractLsb', BitVec.getLsbD_extractLsb', getLsbD_setField, if_neg (by omega)]

/-- The five arithmetic flags of a PSW they were just put into. -/
theorem setArith_flags (p : Word) (c v sv av sav : Bool) :
    flagC (setArith p c v sv av sav) = c ∧ flagV (setArith p c v sv av sav) = v ∧
    flagSV (setArith p c v sv av sav) = sv ∧ flagAV (setArith p c v sv av sav) = av ∧
    flagSAV (setArith p c v sv av sav) = sav ∧
    (setArith p c v sv av sav).extractLsb' 0 27 = p.extractLsb' 0 27 := by
  refine ⟨?_, ?_, ?_, ?_, ?_, ?_⟩
  case refine_6 => exact extract_setField_other _ _ _ _ _ (.inl (by omega))
  all_goals
    simp only [flagC, flagV, flagSV, flagAV, flagSAV, setArith, getLsbD_setField]
    cases c <;> cases v <;> cases sv <;> cases av <;> cases sav <;> rfl

end Sys2Proof.Machine
end

