-- ==== Sys2Proof/Laws/Boundary.lean ====
section
/-!
SUPPORT. Sys2Proof/Laws/Boundary.lean: what a boundary comes down to where nothing is pending, and what the debug events and
the service request nodes do (60 R721, 61 R735 to R742, 60 R641).
-/
namespace Sys2Proof.Machine

/-! ### A quiet boundary -/

theorem sampled_of_no_events {s : State} (h : eventsNow s = []) : sampled s = s.atBoundary := by
  unfold sampled applyInputs State.atBoundary
  rw [h]
  rfl

/-- A step at a quiet boundary is one instruction. -/
theorem step_of_quiet {s : State} (h : s.Quiet) : step s = executeOne s.atBoundary := by
  unfold step boundary
  rw [sampled_of_no_events h.events]
  have h1 : dbgHalted s.atBoundary.dbgsr = false := h.running
  have h2 : breakInDue s s.atBoundary = false := by simp [breakInDue, h.events]
  simp only [h1, h2, afterBreakIn, Bool.false_eq_true, if_false]
  have h3 : s.atBoundary.nmiPending = false := h.nmi
  have h4 : s.atBoundary.daePending = false := h.dae
  have h5 : s.atBoundary.fcdPending = false := h.fcd
  simp [h3, h4, h5, h.interrupt]

/-- Bytes that decode run their instruction. -/
theorem runFetched_of_decode {s : State} {bs rest : List Byte} {i : Instr} (h : decode bs = .ok (i, rest)) :
    runFetched s (.ok bs) = exec i s := by
  simp [runFetched, decodeFetched, h]

/-- Without a trigger before it, the instruction runs, then the triggers after it. -/
theorem executeOne_of_no_trigger {s t : State} {f : Except Stop (List Byte)} (ht : spendAsi s = t) (hf : fetch t = f)
    (hn : ownEventDue t (fetchedInstr f) true = true ∨ firstBefore t = none) :
    executeOne s = afterTriggers t (fetchedInstr f) (runFetched t f) := by
  subst hf ht
  have : (if ownEventDue (spendAsi s) (fetchedInstr (fetch (spendAsi s))) true = true then none
      else firstBefore (spendAsi s)) = none := by
    rcases hn with h | h <;> simp [h]
  unfold executeOne
  generalize spendAsi s = t at *
  dsimp only
  generalize fetch t = f at *
  simp only [this]

/-- With the debug controller off an instruction starts from the boundary's state as it is. -/
@[simp] theorem spendAsi_of_off {s : State} (hd : dbgDe s.dbgsr = false) : spendAsi s = s := by
  simp [spendAsi, asiFree, hd]

/-! ### Debug events -/

/-- With the debug controller off no trigger is armed. -/
theorem trigArmed_of_off {s : State} (n : Fin 8) (hd : dbgDe s.dbgsr = false) : trigArmed s n = false := by
  simp [trigArmed, hd]

/-- An instruction whose own event has no action is just the instruction. -/
theorem withEvent_of_off {e : DebugEvent} {body : State → Res} {s : State} (h : EventOff s e) :
    withEvent e body s = finish s (body s) := by
  have (b : Bool) : (dbgDe s.dbgsr && evtEnabled s e.reg && b) = false := by
    rcases h with h | h <;> simp [h]
  simp only [withEvent, eventBefore, eventAfter, this, Bool.false_eq_true, if_false]
  cases body s <;> rfl

/-- DBGSR after a debug event, bit by bit (61 R740). -/
theorem getLsbD_updateDbgsr (s : State) (e : DebugEvent) (j : Nat) :
    (updateDbgsr s e).getLsbD j =
      if j = 7 then (s.dbgsr.getLsbD 7 || e.reg.getLsbD 2) else if j = 4 then e.reg.getLsbD 5
      else if j = 6 then s.dbgsr.getLsbD 4
      else if 8 ≤ j ∧ j < 13 then e.code.getLsbD (j - 8) else s.dbgsr.getLsbD j := by
  have h2 : (evtEvta e.reg).getLsbD 2 = e.reg.getLsbD 2 := by simp [evtEvta]
  have tail (hj7 : j ≠ 7) :
      (setBit (setBit (setField s.dbgsr 8 e.code) 6 (dbgSusp s.dbgsr)) 4 (evtSusp e.reg)).getLsbD j =
      if j = 4 then e.reg.getLsbD 5 else if j = 6 then s.dbgsr.getLsbD 4
      else if 8 ≤ j ∧ j < 13 then e.code.getLsbD (j - 8) else s.dbgsr.getLsbD j := by
    rw [getLsbD_setBit]
    by_cases h4 : j = 4
    · subst h4; simp [evtSusp]
    · rw [if_neg h4, if_neg h4, getLsbD_setBit]
      by_cases h6 : j = 6
      · subst h6; simp [dbgSusp]
      · rw [if_neg h6, if_neg h6, getLsbD_setField]
        by_cases h8 : 8 ≤ j ∧ j < 13
        · have : j < 32 := by omega
          rw [if_pos (by omega), if_pos h8]
          simp [this]
        · rw [if_neg (by omega), if_neg h8]
  simp only [updateDbgsr]
  by_cases h7 : j = 7
  · subst h7
    split
    · next h => rw [getLsbD_setBit, ← h2, h]; simp
    · next h =>
      have h' : (evtEvta e.reg).getLsbD 2 = false := by simpa using h
      rw [getLsbD_setBit, if_neg (by omega), getLsbD_setBit, if_neg (by omega), getLsbD_setField, if_neg (by omega), if_pos rfl,
        ← h2, h', Bool.or_false]
  · rw [if_neg h7, ← tail h7]
    split
    · rw [getLsbD_setBit, if_neg h7]
    · rfl

/-! ### Service request nodes -/

/-- A node that is there has a number in range. -/
theorem getNode_lt {s : State} {k : Nat} {n : Src} (h : getNode s k = some n) : k < nodeCount s := by
  unfold getNode at h
  unfold nodeCount
  apply Classical.byContradiction
  intro hc
  rw [dif_neg (by omega), dif_neg (by omega), List.getElem?_eq_none (by omega)] at h
  cases h

/-- One node changed: it reads as written, the others as before. -/
theorem getNode_setNode {z : State} {k : Nat} (n : Src) (j : Nat) (hz : (getNode z k).isSome = true) :
    getNode (setNode z k n) j = if j = k then some n else getNode z j := by
  unfold getNode at hz
  unfold setNode
  by_cases h4 : k < 4
  · rw [dif_pos h4]
    unfold getNode
    by_cases hj : j < 4
    · by_cases e : j = k
      · subst e; simp [hj]
      · simp [hj, e, Vector.getElem_set]; omega
    · have : j ≠ k := by omega
      simp [hj, this]
  · rw [dif_neg h4] at hz ⊢
    by_cases h8 : k - 4 < 4
    · rw [dif_pos h8] at hz ⊢
      by_cases hb : k - 4 < z.platform.nSwBreakpoints
      · rw [if_pos hb]
        unfold getNode
        by_cases hj : j < 4
        · have : j ≠ k := by omega
          simp [hj, this]
        · by_cases hj8 : j - 4 < 4
          · by_cases e : j = k
            · subst e; simp [hj, hj8, hb]
            · have hne : k - 4 ≠ j - 4 := by omega
              simp [hj, hj8, e, hne]
          · have : j ≠ k := by omega
            simp [hj, hj8, this]
      · simp [hb] at hz
    · rw [dif_neg h8] at hz ⊢
      unfold getNode
      by_cases hj : j < 4
      · have : j ≠ k := by omega
        simp [hj, this]
      · by_cases hj8 : j - 4 < 4
        · have : j ≠ k := by omega
          simp [hj, hj8, this]
        · by_cases e : j = k
          · subst e
            simp at hz
            simp [hj, hj8, hz]
          · have : ¬ (k - 8 = j - 8) := by omega
            simp [hj, hj8, e, this]

end Sys2Proof.Machine
end

