-- ==== Sys2Proof/Laws/Context.lean ====
section
/-!
SUPPORT. Sys2Proof/Laws/Context.lean: what a context save and restore, taking an exception and returning from one can do
(42 R433, R434, 60 R655, R670, R672).
-/
namespace Sys2Proof.Machine

/-! ### The upper registers after a save -/

theorem dropUpper_kept (s : State) (h : s.platform.upperRegsKept = true) : dropUpper s = s := by simp [dropUpper, h]

section dropUpper

variable (s : State)

@[simp] theorem dropUpper_pc : (dropUpper s).pc = s.pc := by unfold dropUpper; split <;> rfl
@[simp] theorem dropUpper_psw : (dropUpper s).psw = s.psw := by unfold dropUpper; split <;> rfl
@[simp] theorem dropUpper_pcxi : (dropUpper s).pcxi = s.pcxi := by unfold dropUpper; split <;> rfl
@[simp] theorem dropUpper_fcx : (dropUpper s).fcx = s.fcx := by unfold dropUpper; split <;> rfl
@[simp] theorem dropUpper_lcx : (dropUpper s).lcx = s.lcx := by unfold dropUpper; split <;> rfl
@[simp] theorem dropUpper_isp : (dropUpper s).isp = s.isp := by unfold dropUpper; split <;> rfl
@[simp] theorem dropUpper_icr : (dropUpper s).icr = s.icr := by unfold dropUpper; split <;> rfl
@[simp] theorem dropUpper_biv : (dropUpper s).biv = s.biv := by unfold dropUpper; split <;> rfl
@[simp] theorem dropUpper_btv : (dropUpper s).btv = s.btv := by unfold dropUpper; split <;> rfl
@[simp] theorem dropUpper_syscon : (dropUpper s).syscon = s.syscon := by unfold dropUpper; split <;> rfl
@[simp] theorem dropUpper_prot : (dropUpper s).prot = s.prot := by unfold dropUpper; split <;> rfl
@[simp] theorem dropUpper_mmuCon : (dropUpper s).mmuCon = s.mmuCon := by unfold dropUpper; split <;> rfl
@[simp] theorem dropUpper_mmuAsi : (dropUpper s).mmuAsi = s.mmuAsi := by unfold dropUpper; split <;> rfl
@[simp] theorem dropUpper_mmuTva : (dropUpper s).mmuTva = s.mmuTva := by unfold dropUpper; split <;> rfl
@[simp] theorem dropUpper_mmuTpa : (dropUpper s).mmuTpa = s.mmuTpa := by unfold dropUpper; split <;> rfl
@[simp] theorem dropUpper_mmuTpx : (dropUpper s).mmuTpx = s.mmuTpx := by unfold dropUpper; split <;> rfl
@[simp] theorem dropUpper_mmuTfa : (dropUpper s).mmuTfa = s.mmuTfa := by unfold dropUpper; split <;> rfl
@[simp] theorem dropUpper_tlbA : (dropUpper s).tlbA = s.tlbA := by unfold dropUpper; split <;> rfl
@[simp] theorem dropUpper_tlbB : (dropUpper s).tlbB = s.tlbB := by unfold dropUpper; split <;> rfl
@[simp] theorem dropUpper_dbgsr : (dropUpper s).dbgsr = s.dbgsr := by unfold dropUpper; split <;> rfl
@[simp] theorem dropUpper_exevt : (dropUpper s).exevt = s.exevt := by unfold dropUpper; split <;> rfl
@[simp] theorem dropUpper_crevt : (dropUpper s).crevt = s.crevt := by unfold dropUpper; split <;> rfl
@[simp] theorem dropUpper_swevt : (dropUpper s).swevt = s.swevt := by unfold dropUpper; split <;> rfl
@[simp] theorem dropUpper_trEvt : (dropUpper s).trEvt = s.trEvt := by unfold dropUpper; split <;> rfl
@[simp] theorem dropUpper_dms : (dropUpper s).dms = s.dms := by unfold dropUpper; split <;> rfl
@[simp] theorem dropUpper_dcx : (dropUpper s).dcx = s.dcx := by unfold dropUpper; split <;> rfl
@[simp] theorem dropUpper_cpuSrc : (dropUpper s).cpuSrc = s.cpuSrc := by unfold dropUpper; split <;> rfl
@[simp] theorem dropUpper_sbSrc : (dropUpper s).sbSrc = s.sbSrc := by unfold dropUpper; split <;> rfl
@[simp] theorem dropUpper_extraSrc : (dropUpper s).extraSrc = s.extraSrc := by unfold dropUpper; split <;> rfl
@[simp] theorem dropUpper_endinit : (dropUpper s).endinit = s.endinit := by unfold dropUpper; split <;> rfl
@[simp] theorem dropUpper_nmiPending : (dropUpper s).nmiPending = s.nmiPending := by unfold dropUpper; split <;> rfl
@[simp] theorem dropUpper_daePending : (dropUpper s).daePending = s.daePending := by unfold dropUpper; split <;> rfl
@[simp] theorem dropUpper_fcdPending : (dropUpper s).fcdPending = s.fcdPending := by unfold dropUpper; split <;> rfl
@[simp] theorem dropUpper_mem : (dropUpper s).mem = s.mem := by unfold dropUpper; split <;> rfl
@[simp] theorem dropUpper_platform : (dropUpper s).platform = s.platform := by unfold dropUpper; split <;> rfl
@[simp] theorem dropUpper_inputs : (dropUpper s).inputs = s.inputs := by unfold dropUpper; split <;> rfl
@[simp] theorem dropUpper_recentMaps : (dropUpper s).recentMaps = s.recentMaps := by unfold dropUpper; split <;> rfl
@[simp] theorem dropUpper_breakOuts : (dropUpper s).breakOuts = s.breakOuts := by unfold dropUpper; split <;> rfl
@[simp] theorem dropUpper_devices : (dropUpper s).devices = s.devices := by unfold dropUpper; split <;> rfl
@[simp] theorem dropUpper_completed : (dropUpper s).completed = s.completed := by unfold dropUpper; split <;> rfl

end dropUpper

/-- The lower data registers are kept over a save. -/
theorem dropUpper_dr (s : State) (r : Fin 16) (h : r.val < 8) : (dropUpper s).dr r = s.dr r := by
  unfold dropUpper
  split
  · rfl
  · have : ¬ 8 ≤ r.val := by omega
    simp [State.dr, this]

/-- The address registers below A[12] are kept over a save. -/
theorem dropUpper_ar (s : State) (r : Fin 16) (h : r.val < 12) : (dropUpper s).ar r = s.ar r := by
  unfold dropUpper
  split
  · rfl
  · have : ¬ 12 ≤ r.val := by omega
    simp [State.ar, this]

/-! ### The save -/

section saved

variable (u : Bool) (s : State)

@[simp] theorem saved_d : (saved u s).d = s.d := by simp [saved]
@[simp] theorem saved_a : (saved u s).a = s.a := by simp [saved]
@[simp] theorem saved_pc : (saved u s).pc = s.pc := by simp [saved]
@[simp] theorem saved_psw : (saved u s).psw = s.psw := by simp [saved]
@[simp] theorem saved_lcx : (saved u s).lcx = s.lcx := by simp [saved]
@[simp] theorem saved_isp : (saved u s).isp = s.isp := by simp [saved]
@[simp] theorem saved_icr : (saved u s).icr = s.icr := by simp [saved]
@[simp] theorem saved_biv : (saved u s).biv = s.biv := by simp [saved]
@[simp] theorem saved_btv : (saved u s).btv = s.btv := by simp [saved]
@[simp] theorem saved_syscon : (saved u s).syscon = s.syscon := by simp [saved]
@[simp] theorem saved_prot : (saved u s).prot = s.prot := by simp [saved]
@[simp] theorem saved_mmuCon : (saved u s).mmuCon = s.mmuCon := by simp [saved]
@[simp] theorem saved_mmuAsi : (saved u s).mmuAsi = s.mmuAsi := by simp [saved]
@[simp] theorem saved_mmuTva : (saved u s).mmuTva = s.mmuTva := by simp [saved]
@[simp] theorem saved_mmuTpa : (saved u s).mmuTpa = s.mmuTpa := by simp [saved]
@[simp] theorem saved_mmuTpx : (saved u s).mmuTpx = s.mmuTpx := by simp [saved]
@[simp] theorem saved_mmuTfa : (saved u s).mmuTfa = s.mmuTfa := by simp [saved]
@[simp] theorem saved_tlbA : (saved u s).tlbA = s.tlbA := by simp [saved]
@[simp] theorem saved_tlbB : (saved u s).tlbB = s.tlbB := by simp [saved]
@[simp] theorem saved_dbgsr : (saved u s).dbgsr = s.dbgsr := by simp [saved]
@[simp] theorem saved_exevt : (saved u s).exevt = s.exevt := by simp [saved]
@[simp] theorem saved_crevt : (saved u s).crevt = s.crevt := by simp [saved]
@[simp] theorem saved_swevt : (saved u s).swevt = s.swevt := by simp [saved]
@[simp] theorem saved_trEvt : (saved u s).trEvt = s.trEvt := by simp [saved]
@[simp] theorem saved_dms : (saved u s).dms = s.dms := by simp [saved]
@[simp] theorem saved_dcx : (saved u s).dcx = s.dcx := by simp [saved]
@[simp] theorem saved_endinit : (saved u s).endinit = s.endinit := by simp [saved]
@[simp] theorem saved_nmiPending : (saved u s).nmiPending = s.nmiPending := by simp [saved]
@[simp] theorem saved_platform : (saved u s).platform = s.platform := by simp [saved]
@[simp] theorem saved_inputs : (saved u s).inputs = s.inputs := by simp [saved]
@[simp] theorem saved_recentMaps : (saved u s).recentMaps = s.recentMaps := by simp [saved]
@[simp] theorem saved_breakOuts : (saved u s).breakOuts = s.breakOuts := by simp [saved]
@[simp] theorem saved_completed : (saved u s).completed = s.completed := by simp [saved]

end saved

theorem saved_pcxi (u : Bool) (s : State) :
    (saved u s).pcxi = mkPcxi (icrCcpn s.icr) (icrIe s.icr) u (ctxPtr s.fcx) := rfl
theorem saved_fcx (u : Bool) (s : State) :
    (saved u s).fcx = (ctxPtr (wordOf (physRead s (addrs (csaEa (ctxPtr s.fcx)) 4)).1)).setWidth 32 := rfl
theorem saved_fcdPending (u : Bool) (s : State) :
    (saved u s).fcdPending = (s.fcdPending || decide (ctxPtr s.fcx = ctxPtr s.lcx)) := rfl

/-- A save keeps the canonical form. -/
theorem wf_saved (u : Bool) (s : State) (h : Memory.wf s.mem = true) : Memory.wf (saved u s).mem = true :=
  wf_physWrite _ _ _ (by rwa [physRead_mem])

/-- A save writes no byte outside the context save area at FCX. -/
theorem memByte_saved_other (u : Bool) (s : State) (y : Word) (h : y ∉ addrs (csaEa (ctxPtr s.fcx)) 64) :
    (saved u s).memByte y = s.memByte y := by
  have := memByte_physWrite_other (physRead s (addrs (csaEa (ctxPtr s.fcx)) 4)).2 _
    (wordsBytes (ctxWords u s)) y h
  unfold State.memByte at this ⊢
  rw [physRead_mem] at this
  exact this

theorem save_eq_none (u : Bool) (s : State) : save u s = none ↔ saveFails s = true := by
  unfold save; split <;> simp_all

theorem save_eq_some (u : Bool) (s t : State) :
    save u s = some t ↔ saveFails s = false ∧ t = if u then dropUpper (saved true s) else saved false s := by
  unfold save
  split
  · next h => rw [h]; exact ⟨fun h => (nomatch h), fun ⟨h, _⟩ => (nomatch h)⟩
  · next h => rw [Bool.not_eq_true] at h; rw [h]; exact ⟨fun h => ⟨rfl, (Option.some.inj h).symm⟩, fun ⟨_, h⟩ => by rw [h]⟩

/-! ### The restore -/

/-- A restore that answers a state answers this one. -/
theorem restore_eq_ok (u : Bool) (s t : State) :
    restore u s = .ok t ↔ csaForbidden s (csaEa (ctxPtr s.pcxi)) = false ∧
      (∃ x, checkCsa s (csaEa (ctxPtr s.pcxi)) true = .ok x) ∧ t = restored u s := by
  simp only [restore, bind_eq_ok, raiseIf_eq_ok, exists_and_left, exists_const]
  constructor
  · rintro ⟨h1, x, h2, h3⟩
    exact ⟨h1, ⟨x, h2⟩, (Except.ok.inj h3).symm⟩
  · rintro ⟨h1, ⟨x, h2⟩, rfl⟩
    exact ⟨h1, x, h2, rfl⟩

theorem checkCsa_eq_ok (s : State) (ea : Word) (reads : Bool) (x : Unit) :
    checkCsa s ea reads = .ok x ↔
      (isUser0 s = true → ∀ pa ∈ addrs ea 64, hasP (attrOf s pa) = false) ∧
      (∀ pa ∈ addrs ea 64, inCsfrWindow s pa = false) ∧ (reads = true → ∀ pa ∈ addrs ea 64, busError s pa = false) := by
  simp only [checkCsa, bind_eq_ok, raiseIf_eq_ok, stopIf_eq_ok, exists_and_left, exists_const]
  cases hu : isUser0 s <;> cases hr : reads <;> simp [List.any_eq_false, hasD]

section restored

variable (u : Bool) (s : State)

@[simp] theorem restored_pc : (restored u s).pc = s.pc := by unfold restored; cases u <;> simp
@[simp] theorem restored_lcx : (restored u s).lcx = s.lcx := by unfold restored; cases u <;> simp
@[simp] theorem restored_isp : (restored u s).isp = s.isp := by unfold restored; cases u <;> simp
@[simp] theorem restored_icr : (restored u s).icr = s.icr := by unfold restored; cases u <;> simp
@[simp] theorem restored_biv : (restored u s).biv = s.biv := by unfold restored; cases u <;> simp
@[simp] theorem restored_btv : (restored u s).btv = s.btv := by unfold restored; cases u <;> simp
@[simp] theorem restored_syscon : (restored u s).syscon = s.syscon := by unfold restored; cases u <;> simp
@[simp] theorem restored_prot : (restored u s).prot = s.prot := by unfold restored; cases u <;> simp
@[simp] theorem restored_mmuCon : (restored u s).mmuCon = s.mmuCon := by unfold restored; cases u <;> simp
@[simp] theorem restored_mmuAsi : (restored u s).mmuAsi = s.mmuAsi := by unfold restored; cases u <;> simp
@[simp] theorem restored_mmuTva : (restored u s).mmuTva = s.mmuTva := by unfold restored; cases u <;> simp
@[simp] theorem restored_mmuTpa : (restored u s).mmuTpa = s.mmuTpa := by unfold restored; cases u <;> simp
@[simp] theorem restored_mmuTpx : (restored u s).mmuTpx = s.mmuTpx := by unfold restored; cases u <;> simp
@[simp] theorem restored_mmuTfa : (restored u s).mmuTfa = s.mmuTfa := by unfold restored; cases u <;> simp
@[simp] theorem restored_tlbA : (restored u s).tlbA = s.tlbA := by unfold restored; cases u <;> simp
@[simp] theorem restored_tlbB : (restored u s).tlbB = s.tlbB := by unfold restored; cases u <;> simp
@[simp] theorem restored_dbgsr : (restored u s).dbgsr = s.dbgsr := by unfold restored; cases u <;> simp
@[simp] theorem restored_exevt : (restored u s).exevt = s.exevt := by unfold restored; cases u <;> simp
@[simp] theorem restored_crevt : (restored u s).crevt = s.crevt := by unfold restored; cases u <;> simp
@[simp] theorem restored_swevt : (restored u s).swevt = s.swevt := by unfold restored; cases u <;> simp
@[simp] theorem restored_trEvt : (restored u s).trEvt = s.trEvt := by unfold restored; cases u <;> simp
@[simp] theorem restored_dms : (restored u s).dms = s.dms := by unfold restored; cases u <;> simp
@[simp] theorem restored_dcx : (restored u s).dcx = s.dcx := by unfold restored; cases u <;> simp
@[simp] theorem restored_endinit : (restored u s).endinit = s.endinit := by unfold restored; cases u <;> simp
@[simp] theorem restored_nmiPending : (restored u s).nmiPending = s.nmiPending := by unfold restored; cases u <;> simp
@[simp] theorem restored_fcdPending : (restored u s).fcdPending = s.fcdPending := by unfold restored; cases u <;> simp
@[simp] theorem restored_platform : (restored u s).platform = s.platform := by unfold restored; cases u <;> simp
@[simp] theorem restored_inputs : (restored u s).inputs = s.inputs := by unfold restored; cases u <;> simp
@[simp] theorem restored_recentMaps : (restored u s).recentMaps = s.recentMaps := by unfold restored; cases u <;> simp
@[simp] theorem restored_breakOuts : (restored u s).breakOuts = s.breakOuts := by unfold restored; cases u <;> simp
@[simp] theorem restored_completed : (restored u s).completed = s.completed := by unfold restored; cases u <;> simp

end restored

/-- A restore keeps the canonical form. -/
theorem wf_restored (u : Bool) (s : State) (h : Memory.wf s.mem = true) : Memory.wf (restored u s).mem = true := by
  have := wf_physWrite (physRead s (addrs (csaEa (ctxPtr s.pcxi)) 64)).2 (addrs (csaEa (ctxPtr s.pcxi)) 4)
    (wordBytes s.fcx) (by rwa [physRead_mem])
  unfold restored
  cases u <;> exact this

/-! ### Taking an exception -/

section dropAfterFcu

variable (s : State)

@[simp] theorem dropAfterFcu_d : (dropAfterFcu s).d = s.d := by unfold dropAfterFcu; split <;> simp
@[simp] theorem dropAfterFcu_pc : (dropAfterFcu s).pc = s.pc := by unfold dropAfterFcu; split <;> simp
@[simp] theorem dropAfterFcu_lcx : (dropAfterFcu s).lcx = s.lcx := by unfold dropAfterFcu; split <;> simp
@[simp] theorem dropAfterFcu_isp : (dropAfterFcu s).isp = s.isp := by unfold dropAfterFcu; split <;> simp
@[simp] theorem dropAfterFcu_icr : (dropAfterFcu s).icr = s.icr := by unfold dropAfterFcu; split <;> simp
@[simp] theorem dropAfterFcu_biv : (dropAfterFcu s).biv = s.biv := by unfold dropAfterFcu; split <;> simp
@[simp] theorem dropAfterFcu_btv : (dropAfterFcu s).btv = s.btv := by unfold dropAfterFcu; split <;> simp
@[simp] theorem dropAfterFcu_syscon : (dropAfterFcu s).syscon = s.syscon := by unfold dropAfterFcu; split <;> simp
@[simp] theorem dropAfterFcu_prot : (dropAfterFcu s).prot = s.prot := by unfold dropAfterFcu; split <;> simp
@[simp] theorem dropAfterFcu_mmuCon : (dropAfterFcu s).mmuCon = s.mmuCon := by unfold dropAfterFcu; split <;> simp
@[simp] theorem dropAfterFcu_mmuAsi : (dropAfterFcu s).mmuAsi = s.mmuAsi := by unfold dropAfterFcu; split <;> simp
@[simp] theorem dropAfterFcu_mmuTva : (dropAfterFcu s).mmuTva = s.mmuTva := by unfold dropAfterFcu; split <;> simp
@[simp] theorem dropAfterFcu_mmuTpa : (dropAfterFcu s).mmuTpa = s.mmuTpa := by unfold dropAfterFcu; split <;> simp
@[simp] theorem dropAfterFcu_mmuTpx : (dropAfterFcu s).mmuTpx = s.mmuTpx := by unfold dropAfterFcu; split <;> simp
@[simp] theorem dropAfterFcu_mmuTfa : (dropAfterFcu s).mmuTfa = s.mmuTfa := by unfold dropAfterFcu; split <;> simp
@[simp] theorem dropAfterFcu_tlbA : (dropAfterFcu s).tlbA = s.tlbA := by unfold dropAfterFcu; split <;> simp
@[simp] theorem dropAfterFcu_tlbB : (dropAfterFcu s).tlbB = s.tlbB := by unfold dropAfterFcu; split <;> simp
@[simp] theorem dropAfterFcu_dbgsr : (dropAfterFcu s).dbgsr = s.dbgsr := by unfold dropAfterFcu; split <;> simp
@[simp] theorem dropAfterFcu_exevt : (dropAfterFcu s).exevt = s.exevt := by unfold dropAfterFcu; split <;> simp
@[simp] theorem dropAfterFcu_crevt : (dropAfterFcu s).crevt = s.crevt := by unfold dropAfterFcu; split <;> simp
@[simp] theorem dropAfterFcu_swevt : (dropAfterFcu s).swevt = s.swevt := by unfold dropAfterFcu; split <;> simp
@[simp] theorem dropAfterFcu_trEvt : (dropAfterFcu s).trEvt = s.trEvt := by unfold dropAfterFcu; split <;> simp
@[simp] theorem dropAfterFcu_dms : (dropAfterFcu s).dms = s.dms := by unfold dropAfterFcu; split <;> simp
@[simp] theorem dropAfterFcu_dcx : (dropAfterFcu s).dcx = s.dcx := by unfold dropAfterFcu; split <;> simp
@[simp] theorem dropAfterFcu_cpuSrc : (dropAfterFcu s).cpuSrc = s.cpuSrc := by unfold dropAfterFcu; split <;> simp
@[simp] theorem dropAfterFcu_sbSrc : (dropAfterFcu s).sbSrc = s.sbSrc := by unfold dropAfterFcu; split <;> simp
@[simp] theorem dropAfterFcu_extraSrc : (dropAfterFcu s).extraSrc = s.extraSrc := by unfold dropAfterFcu; split <;> simp
@[simp] theorem dropAfterFcu_endinit : (dropAfterFcu s).endinit = s.endinit := by unfold dropAfterFcu; split <;> simp
@[simp] theorem dropAfterFcu_nmiPending : (dropAfterFcu s).nmiPending = s.nmiPending := by unfold dropAfterFcu; split <;> simp
@[simp] theorem dropAfterFcu_daePending : (dropAfterFcu s).daePending = s.daePending := by unfold dropAfterFcu; split <;> simp
@[simp] theorem dropAfterFcu_fcdPending : (dropAfterFcu s).fcdPending = s.fcdPending := by unfold dropAfterFcu; split <;> simp
@[simp] theorem dropAfterFcu_platform : (dropAfterFcu s).platform = s.platform := by unfold dropAfterFcu; split <;> simp
@[simp] theorem dropAfterFcu_inputs : (dropAfterFcu s).inputs = s.inputs := by unfold dropAfterFcu; split <;> simp
@[simp] theorem dropAfterFcu_recentMaps : (dropAfterFcu s).recentMaps = s.recentMaps := by unfold dropAfterFcu; split <;> simp
@[simp] theorem dropAfterFcu_breakOuts : (dropAfterFcu s).breakOuts = s.breakOuts := by unfold dropAfterFcu; split <;> simp
@[simp] theorem dropAfterFcu_devices : (dropAfterFcu s).devices = s.devices := by unfold dropAfterFcu; split <;> simp
@[simp] theorem dropAfterFcu_completed : (dropAfterFcu s).completed = s.completed := by unfold dropAfterFcu; split <;> simp

end dropAfterFcu

theorem wf_dropAfterFcu (s : State) (h : Memory.wf s.mem = true) : Memory.wf (dropAfterFcu s).mem = true := by
  unfold dropAfterFcu
  split
  · exact h
  · exact wf_writeMemory _ _ _ h

theorem dropAfterFcu_kept (s : State) (h : s.platform.fcuKeeps = true) : dropAfterFcu s = s := by
  simp [dropAfterFcu, h]

section takeFcu

variable (s : State)

@[simp] theorem takeFcu_lcx : (takeFcu s).lcx = s.lcx := by simp [takeFcu]
@[simp] theorem takeFcu_isp : (takeFcu s).isp = s.isp := by simp [takeFcu]
@[simp] theorem takeFcu_biv : (takeFcu s).biv = s.biv := by simp [takeFcu]
@[simp] theorem takeFcu_btv : (takeFcu s).btv = s.btv := by simp [takeFcu]
@[simp] theorem takeFcu_syscon : (takeFcu s).syscon = s.syscon := by simp [takeFcu]
@[simp] theorem takeFcu_prot : (takeFcu s).prot = s.prot := by simp [takeFcu]
@[simp] theorem takeFcu_mmuCon : (takeFcu s).mmuCon = s.mmuCon := by simp [takeFcu]
@[simp] theorem takeFcu_mmuAsi : (takeFcu s).mmuAsi = s.mmuAsi := by simp [takeFcu]
@[simp] theorem takeFcu_mmuTva : (takeFcu s).mmuTva = s.mmuTva := by simp [takeFcu]
@[simp] theorem takeFcu_mmuTpa : (takeFcu s).mmuTpa = s.mmuTpa := by simp [takeFcu]
@[simp] theorem takeFcu_mmuTpx : (takeFcu s).mmuTpx = s.mmuTpx := by simp [takeFcu]
@[simp] theorem takeFcu_mmuTfa : (takeFcu s).mmuTfa = s.mmuTfa := by simp [takeFcu]
@[simp] theorem takeFcu_tlbA : (takeFcu s).tlbA = s.tlbA := by simp [takeFcu]
@[simp] theorem takeFcu_tlbB : (takeFcu s).tlbB = s.tlbB := by simp [takeFcu]
@[simp] theorem takeFcu_dbgsr : (takeFcu s).dbgsr = s.dbgsr := by simp [takeFcu]
@[simp] theorem takeFcu_exevt : (takeFcu s).exevt = s.exevt := by simp [takeFcu]
@[simp] theorem takeFcu_crevt : (takeFcu s).crevt = s.crevt := by simp [takeFcu]
@[simp] theorem takeFcu_swevt : (takeFcu s).swevt = s.swevt := by simp [takeFcu]
@[simp] theorem takeFcu_trEvt : (takeFcu s).trEvt = s.trEvt := by simp [takeFcu]
@[simp] theorem takeFcu_dms : (takeFcu s).dms = s.dms := by simp [takeFcu]
@[simp] theorem takeFcu_dcx : (takeFcu s).dcx = s.dcx := by simp [takeFcu]
@[simp] theorem takeFcu_cpuSrc : (takeFcu s).cpuSrc = s.cpuSrc := by simp [takeFcu]
@[simp] theorem takeFcu_sbSrc : (takeFcu s).sbSrc = s.sbSrc := by simp [takeFcu]
@[simp] theorem takeFcu_extraSrc : (takeFcu s).extraSrc = s.extraSrc := by simp [takeFcu]
@[simp] theorem takeFcu_endinit : (takeFcu s).endinit = s.endinit := by simp [takeFcu]
@[simp] theorem takeFcu_nmiPending : (takeFcu s).nmiPending = s.nmiPending := by simp [takeFcu]
@[simp] theorem takeFcu_daePending : (takeFcu s).daePending = s.daePending := by simp [takeFcu]
@[simp] theorem takeFcu_fcdPending : (takeFcu s).fcdPending = s.fcdPending := by simp [takeFcu]
@[simp] theorem takeFcu_platform : (takeFcu s).platform = s.platform := by simp [takeFcu]
@[simp] theorem takeFcu_inputs : (takeFcu s).inputs = s.inputs := by simp [takeFcu]
@[simp] theorem takeFcu_recentMaps : (takeFcu s).recentMaps = s.recentMaps := by simp [takeFcu]
@[simp] theorem takeFcu_breakOuts : (takeFcu s).breakOuts = s.breakOuts := by simp [takeFcu]
@[simp] theorem takeFcu_devices : (takeFcu s).devices = s.devices := by simp [takeFcu]

end takeFcu

/-- An exception entry either saves the upper context and enters its handler, or becomes the reduced FCU entry. -/
theorem enterTrap_cases (tcn : BitVec 3) (tin : BitVec 8) (ra : Word) (s : State) :
    (saveFails s = true ∧ enterTrap tcn tin ra s = takeFcu s) ∨
    (saveFails s = false ∧ enterTrap tcn tin ra s =
      { dropUpper (saved true s) with
        a := entryStack s ((dropUpper (saved true s)).a.set 11 ra),
        d := (dropUpper (saved true s)).d.set 15 (tin.setWidth 32),
        psw := entryPsw s.psw, icr := setBit s.icr 8 false, pc := trapVector s tcn, completed := false }) := by
  cases h : saveFails s
  · refine .inr ⟨rfl, ?_⟩
    simp [enterTrap, save, h]
  · exact .inl ⟨rfl, by simp [enterTrap, save, h]⟩

section enterTrap

variable (tcn : BitVec 3) (tin : BitVec 8) (ra : Word) (s : State)

@[simp] theorem enterTrap_lcx : (enterTrap tcn tin ra s).lcx = s.lcx := by rcases enterTrap_cases tcn tin ra s with ⟨_, h⟩ | ⟨_, h⟩ <;> rw [h] <;> simp
@[simp] theorem enterTrap_isp : (enterTrap tcn tin ra s).isp = s.isp := by rcases enterTrap_cases tcn tin ra s with ⟨_, h⟩ | ⟨_, h⟩ <;> rw [h] <;> simp
@[simp] theorem enterTrap_biv : (enterTrap tcn tin ra s).biv = s.biv := by rcases enterTrap_cases tcn tin ra s with ⟨_, h⟩ | ⟨_, h⟩ <;> rw [h] <;> simp
@[simp] theorem enterTrap_btv : (enterTrap tcn tin ra s).btv = s.btv := by rcases enterTrap_cases tcn tin ra s with ⟨_, h⟩ | ⟨_, h⟩ <;> rw [h] <;> simp
@[simp] theorem enterTrap_syscon : (enterTrap tcn tin ra s).syscon = s.syscon := by rcases enterTrap_cases tcn tin ra s with ⟨_, h⟩ | ⟨_, h⟩ <;> rw [h] <;> simp
@[simp] theorem enterTrap_prot : (enterTrap tcn tin ra s).prot = s.prot := by rcases enterTrap_cases tcn tin ra s with ⟨_, h⟩ | ⟨_, h⟩ <;> rw [h] <;> simp
@[simp] theorem enterTrap_mmuCon : (enterTrap tcn tin ra s).mmuCon = s.mmuCon := by rcases enterTrap_cases tcn tin ra s with ⟨_, h⟩ | ⟨_, h⟩ <;> rw [h] <;> simp
@[simp] theorem enterTrap_mmuAsi : (enterTrap tcn tin ra s).mmuAsi = s.mmuAsi := by rcases enterTrap_cases tcn tin ra s with ⟨_, h⟩ | ⟨_, h⟩ <;> rw [h] <;> simp
@[simp] theorem enterTrap_mmuTva : (enterTrap tcn tin ra s).mmuTva = s.mmuTva := by rcases enterTrap_cases tcn tin ra s with ⟨_, h⟩ | ⟨_, h⟩ <;> rw [h] <;> simp
@[simp] theorem enterTrap_mmuTpa : (enterTrap tcn tin ra s).mmuTpa = s.mmuTpa := by rcases enterTrap_cases tcn tin ra s with ⟨_, h⟩ | ⟨_, h⟩ <;> rw [h] <;> simp
@[simp] theorem enterTrap_mmuTpx : (enterTrap tcn tin ra s).mmuTpx = s.mmuTpx := by rcases enterTrap_cases tcn tin ra s with ⟨_, h⟩ | ⟨_, h⟩ <;> rw [h] <;> simp
@[simp] theorem enterTrap_mmuTfa : (enterTrap tcn tin ra s).mmuTfa = s.mmuTfa := by rcases enterTrap_cases tcn tin ra s with ⟨_, h⟩ | ⟨_, h⟩ <;> rw [h] <;> simp
@[simp] theorem enterTrap_tlbA : (enterTrap tcn tin ra s).tlbA = s.tlbA := by rcases enterTrap_cases tcn tin ra s with ⟨_, h⟩ | ⟨_, h⟩ <;> rw [h] <;> simp
@[simp] theorem enterTrap_tlbB : (enterTrap tcn tin ra s).tlbB = s.tlbB := by rcases enterTrap_cases tcn tin ra s with ⟨_, h⟩ | ⟨_, h⟩ <;> rw [h] <;> simp
@[simp] theorem enterTrap_dbgsr : (enterTrap tcn tin ra s).dbgsr = s.dbgsr := by rcases enterTrap_cases tcn tin ra s with ⟨_, h⟩ | ⟨_, h⟩ <;> rw [h] <;> simp
@[simp] theorem enterTrap_exevt : (enterTrap tcn tin ra s).exevt = s.exevt := by rcases enterTrap_cases tcn tin ra s with ⟨_, h⟩ | ⟨_, h⟩ <;> rw [h] <;> simp
@[simp] theorem enterTrap_crevt : (enterTrap tcn tin ra s).crevt = s.crevt := by rcases enterTrap_cases tcn tin ra s with ⟨_, h⟩ | ⟨_, h⟩ <;> rw [h] <;> simp
@[simp] theorem enterTrap_swevt : (enterTrap tcn tin ra s).swevt = s.swevt := by rcases enterTrap_cases tcn tin ra s with ⟨_, h⟩ | ⟨_, h⟩ <;> rw [h] <;> simp
@[simp] theorem enterTrap_trEvt : (enterTrap tcn tin ra s).trEvt = s.trEvt := by rcases enterTrap_cases tcn tin ra s with ⟨_, h⟩ | ⟨_, h⟩ <;> rw [h] <;> simp
@[simp] theorem enterTrap_dms : (enterTrap tcn tin ra s).dms = s.dms := by rcases enterTrap_cases tcn tin ra s with ⟨_, h⟩ | ⟨_, h⟩ <;> rw [h] <;> simp
@[simp] theorem enterTrap_dcx : (enterTrap tcn tin ra s).dcx = s.dcx := by rcases enterTrap_cases tcn tin ra s with ⟨_, h⟩ | ⟨_, h⟩ <;> rw [h] <;> simp
@[simp] theorem enterTrap_endinit : (enterTrap tcn tin ra s).endinit = s.endinit := by rcases enterTrap_cases tcn tin ra s with ⟨_, h⟩ | ⟨_, h⟩ <;> rw [h] <;> simp
@[simp] theorem enterTrap_nmiPending : (enterTrap tcn tin ra s).nmiPending = s.nmiPending := by rcases enterTrap_cases tcn tin ra s with ⟨_, h⟩ | ⟨_, h⟩ <;> rw [h] <;> simp
@[simp] theorem enterTrap_platform : (enterTrap tcn tin ra s).platform = s.platform := by rcases enterTrap_cases tcn tin ra s with ⟨_, h⟩ | ⟨_, h⟩ <;> rw [h] <;> simp
@[simp] theorem enterTrap_inputs : (enterTrap tcn tin ra s).inputs = s.inputs := by rcases enterTrap_cases tcn tin ra s with ⟨_, h⟩ | ⟨_, h⟩ <;> rw [h] <;> simp
@[simp] theorem enterTrap_recentMaps : (enterTrap tcn tin ra s).recentMaps = s.recentMaps := by rcases enterTrap_cases tcn tin ra s with ⟨_, h⟩ | ⟨_, h⟩ <;> rw [h] <;> simp
@[simp] theorem enterTrap_breakOuts : (enterTrap tcn tin ra s).breakOuts = s.breakOuts := by
  rcases enterTrap_cases tcn tin ra s with ⟨_, h⟩ | ⟨_, h⟩ <;> simp [h]

end enterTrap

theorem enterTrap_completed (tcn : BitVec 3) (tin : BitVec 8) (ra : Word) (s : State) :
    (enterTrap tcn tin ra s).completed = false := by
  rcases enterTrap_cases tcn tin ra s with ⟨_, h⟩ | ⟨_, h⟩ <;> rw [h] <;> rfl

section takeTrap

variable (t : Trap) (s : State)

@[simp] theorem takeTrap_lcx : (takeTrap t s).lcx = s.lcx := by cases t <;> simp [takeTrap, recordTrap]
@[simp] theorem takeTrap_isp : (takeTrap t s).isp = s.isp := by cases t <;> simp [takeTrap, recordTrap]
@[simp] theorem takeTrap_biv : (takeTrap t s).biv = s.biv := by cases t <;> simp [takeTrap, recordTrap]
@[simp] theorem takeTrap_btv : (takeTrap t s).btv = s.btv := by cases t <;> simp [takeTrap, recordTrap]
@[simp] theorem takeTrap_syscon : (takeTrap t s).syscon = s.syscon := by cases t <;> simp [takeTrap, recordTrap]
@[simp] theorem takeTrap_prot : (takeTrap t s).prot = s.prot := by cases t <;> simp [takeTrap, recordTrap]
@[simp] theorem takeTrap_mmuCon : (takeTrap t s).mmuCon = s.mmuCon := by cases t <;> simp [takeTrap, recordTrap]
@[simp] theorem takeTrap_mmuAsi : (takeTrap t s).mmuAsi = s.mmuAsi := by cases t <;> simp [takeTrap, recordTrap]
@[simp] theorem takeTrap_mmuTva : (takeTrap t s).mmuTva = s.mmuTva := by cases t <;> simp [takeTrap, recordTrap]
@[simp] theorem takeTrap_mmuTpa : (takeTrap t s).mmuTpa = s.mmuTpa := by cases t <;> simp [takeTrap, recordTrap]
@[simp] theorem takeTrap_mmuTpx : (takeTrap t s).mmuTpx = s.mmuTpx := by cases t <;> simp [takeTrap, recordTrap]
@[simp] theorem takeTrap_tlbA : (takeTrap t s).tlbA = s.tlbA := by cases t <;> simp [takeTrap, recordTrap]
@[simp] theorem takeTrap_tlbB : (takeTrap t s).tlbB = s.tlbB := by cases t <;> simp [takeTrap, recordTrap]
@[simp] theorem takeTrap_dbgsr : (takeTrap t s).dbgsr = s.dbgsr := by cases t <;> simp [takeTrap, recordTrap]
@[simp] theorem takeTrap_exevt : (takeTrap t s).exevt = s.exevt := by cases t <;> simp [takeTrap, recordTrap]
@[simp] theorem takeTrap_crevt : (takeTrap t s).crevt = s.crevt := by cases t <;> simp [takeTrap, recordTrap]
@[simp] theorem takeTrap_swevt : (takeTrap t s).swevt = s.swevt := by cases t <;> simp [takeTrap, recordTrap]
@[simp] theorem takeTrap_trEvt : (takeTrap t s).trEvt = s.trEvt := by cases t <;> simp [takeTrap, recordTrap]
@[simp] theorem takeTrap_dms : (takeTrap t s).dms = s.dms := by cases t <;> simp [takeTrap, recordTrap]
@[simp] theorem takeTrap_dcx : (takeTrap t s).dcx = s.dcx := by cases t <;> simp [takeTrap, recordTrap]
@[simp] theorem takeTrap_endinit : (takeTrap t s).endinit = s.endinit := by cases t <;> simp [takeTrap, recordTrap]
@[simp] theorem takeTrap_nmiPending : (takeTrap t s).nmiPending = s.nmiPending := by cases t <;> simp [takeTrap, recordTrap]
@[simp] theorem takeTrap_platform : (takeTrap t s).platform = s.platform := by cases t <;> simp [takeTrap, recordTrap]
@[simp] theorem takeTrap_inputs : (takeTrap t s).inputs = s.inputs := by cases t <;> simp [takeTrap, recordTrap]
@[simp] theorem takeTrap_recentMaps : (takeTrap t s).recentMaps = s.recentMaps := by cases t <;> simp [takeTrap, recordTrap]
@[simp] theorem takeTrap_breakOuts : (takeTrap t s).breakOuts = s.breakOuts := by cases t <;> simp [takeTrap, recordTrap]

end takeTrap

end Sys2Proof.Machine
end

