-- ==== Sys2Proof/Laws/Decode.lean ====
section
/-!
SUPPORT. Sys2Proof/Laws/Decode.lean: each field of each format reads back, and the bytes of a word put together give the
word.
-/
namespace Sys2Proof

@[simp] theorem regOf_regBits (r : Fin 16) : regOf (regBits r) = r := by
  simp [regOf, regBits]

section abs

variable (op1 : BitVec 8) (op2 : BitVec 2) (off : BitVec 18) (s1 : BitVec 4)

@[simp] theorem fld_op1_abs : Fld.op1 (Fmt.abs op1 op2 off s1) = op1 := by
  apply BitVec.eq_of_getLsbD_eq
  intro i hi
  simp only [Fld.op1, Fmt.abs, BitVec.getLsbD_append, BitVec.getLsbD_extractLsb']
  grind
@[simp] theorem fld_s1_abs : Fld.s1 (Fmt.abs op1 op2 off s1) = s1 := by
  apply BitVec.eq_of_getLsbD_eq
  intro i hi
  simp only [Fld.s1, Fmt.abs, BitVec.getLsbD_append, BitVec.getLsbD_extractLsb']
  grind
@[simp] theorem fld_op2abs_abs : Fld.op2abs (Fmt.abs op1 op2 off s1) = op2 := by
  apply BitVec.eq_of_getLsbD_eq
  intro i hi
  simp only [Fld.op2abs, Fmt.abs, BitVec.getLsbD_append, BitVec.getLsbD_extractLsb']
  grind
@[simp] theorem fld_off18_abs : Fld.off18 (Fmt.abs op1 op2 off s1) = off := by
  apply BitVec.eq_of_getLsbD_eq
  intro i hi
  simp only [Fld.off18, Fmt.abs, BitVec.getLsbD_append, BitVec.getLsbD_extractLsb']
  grind

end abs

section b

variable (op1 : BitVec 8) (disp : BitVec 24)

@[simp] theorem fld_op1_b : Fld.op1 (Fmt.b op1 disp) = op1 := by
  apply BitVec.eq_of_getLsbD_eq
  intro i hi
  simp only [Fld.op1, Fmt.b, BitVec.getLsbD_append, BitVec.getLsbD_extractLsb']
  grind
@[simp] theorem fld_disp24_b : Fld.disp24 (Fmt.b op1 disp) = disp := by
  apply BitVec.eq_of_getLsbD_eq
  intro i hi
  simp only [Fld.disp24, Fmt.b, BitVec.getLsbD_append, BitVec.getLsbD_extractLsb']
  grind

end b

section bo

variable (op1 : BitVec 8) (op2 : BitVec 6) (off : BitVec 10) (s2 s1 : BitVec 4)

@[simp] theorem fld_op1_bo : Fld.op1 (Fmt.bo op1 op2 off s2 s1) = op1 := by
  apply BitVec.eq_of_getLsbD_eq
  intro i hi
  simp only [Fld.op1, Fmt.bo, BitVec.getLsbD_append, BitVec.getLsbD_extractLsb']
  grind
@[simp] theorem fld_s1_bo : Fld.s1 (Fmt.bo op1 op2 off s2 s1) = s1 := by
  apply BitVec.eq_of_getLsbD_eq
  intro i hi
  simp only [Fld.s1, Fmt.bo, BitVec.getLsbD_append, BitVec.getLsbD_extractLsb']
  grind
@[simp] theorem fld_s2_bo : Fld.s2 (Fmt.bo op1 op2 off s2 s1) = s2 := by
  apply BitVec.eq_of_getLsbD_eq
  intro i hi
  simp only [Fld.s2, Fmt.bo, BitVec.getLsbD_append, BitVec.getLsbD_extractLsb']
  grind
@[simp] theorem fld_op2bo_bo : Fld.op2bo (Fmt.bo op1 op2 off s2 s1) = op2 := by
  apply BitVec.eq_of_getLsbD_eq
  intro i hi
  simp only [Fld.op2bo, Fmt.bo, BitVec.getLsbD_append, BitVec.getLsbD_extractLsb']
  grind
@[simp] theorem fld_off10_bo : Fld.off10 (Fmt.bo op1 op2 off s2 s1) = off := by
  apply BitVec.eq_of_getLsbD_eq
  intro i hi
  simp only [Fld.off10, Fmt.bo, BitVec.getLsbD_append, BitVec.getLsbD_extractLsb']
  grind

end bo

section bol

variable (op1 : BitVec 8) (off : BitVec 16) (s2 s1 : BitVec 4)

@[simp] theorem fld_op1_bol : Fld.op1 (Fmt.bol op1 off s2 s1) = op1 := by
  apply BitVec.eq_of_getLsbD_eq
  intro i hi
  simp only [Fld.op1, Fmt.bol, BitVec.getLsbD_append, BitVec.getLsbD_extractLsb']
  grind
@[simp] theorem fld_s1_bol : Fld.s1 (Fmt.bol op1 off s2 s1) = s1 := by
  apply BitVec.eq_of_getLsbD_eq
  intro i hi
  simp only [Fld.s1, Fmt.bol, BitVec.getLsbD_append, BitVec.getLsbD_extractLsb']
  grind
@[simp] theorem fld_s2_bol : Fld.s2 (Fmt.bol op1 off s2 s1) = s2 := by
  apply BitVec.eq_of_getLsbD_eq
  intro i hi
  simp only [Fld.s2, Fmt.bol, BitVec.getLsbD_append, BitVec.getLsbD_extractLsb']
  grind
@[simp] theorem fld_off16_bol : Fld.off16 (Fmt.bol op1 off s2 s1) = off := by
  apply BitVec.eq_of_getLsbD_eq
  intro i hi
  simp only [Fld.off16, Fmt.bol, BitVec.getLsbD_append, BitVec.getLsbD_extractLsb']
  grind

end bol

section rc

variable (op1 : BitVec 8) (op2 : BitVec 7) (k : BitVec 9) (s1 d : BitVec 4)

@[simp] theorem fld_op1_rc : Fld.op1 (Fmt.rc op1 op2 k s1 d) = op1 := by
  apply BitVec.eq_of_getLsbD_eq
  intro i hi
  simp only [Fld.op1, Fmt.rc, BitVec.getLsbD_append, BitVec.getLsbD_extractLsb']
  grind
@[simp] theorem fld_s1_rc : Fld.s1 (Fmt.rc op1 op2 k s1 d) = s1 := by
  apply BitVec.eq_of_getLsbD_eq
  intro i hi
  simp only [Fld.s1, Fmt.rc, BitVec.getLsbD_append, BitVec.getLsbD_extractLsb']
  grind
@[simp] theorem fld_d_rc : Fld.d (Fmt.rc op1 op2 k s1 d) = d := by
  apply BitVec.eq_of_getLsbD_eq
  intro i hi
  simp only [Fld.d, Fmt.rc, BitVec.getLsbD_append, BitVec.getLsbD_extractLsb']
  grind
@[simp] theorem fld_op2rc_rc : Fld.op2rc (Fmt.rc op1 op2 k s1 d) = op2 := by
  apply BitVec.eq_of_getLsbD_eq
  intro i hi
  simp only [Fld.op2rc, Fmt.rc, BitVec.getLsbD_append, BitVec.getLsbD_extractLsb']
  grind
@[simp] theorem fld_const9_rc : Fld.const9 (Fmt.rc op1 op2 k s1 d) = k := by
  apply BitVec.eq_of_getLsbD_eq
  intro i hi
  simp only [Fld.const9, Fmt.rc, BitVec.getLsbD_append, BitVec.getLsbD_extractLsb']
  grind

end rc

section rlc

variable (op1 : BitVec 8) (k : BitVec 16) (s1 d : BitVec 4)

@[simp] theorem fld_op1_rlc : Fld.op1 (Fmt.rlc op1 k s1 d) = op1 := by
  apply BitVec.eq_of_getLsbD_eq
  intro i hi
  simp only [Fld.op1, Fmt.rlc, BitVec.getLsbD_append, BitVec.getLsbD_extractLsb']
  grind
@[simp] theorem fld_s1_rlc : Fld.s1 (Fmt.rlc op1 k s1 d) = s1 := by
  apply BitVec.eq_of_getLsbD_eq
  intro i hi
  simp only [Fld.s1, Fmt.rlc, BitVec.getLsbD_append, BitVec.getLsbD_extractLsb']
  grind
@[simp] theorem fld_d_rlc : Fld.d (Fmt.rlc op1 k s1 d) = d := by
  apply BitVec.eq_of_getLsbD_eq
  intro i hi
  simp only [Fld.d, Fmt.rlc, BitVec.getLsbD_append, BitVec.getLsbD_extractLsb']
  grind
@[simp] theorem fld_const16_rlc : Fld.const16 (Fmt.rlc op1 k s1 d) = k := by
  apply BitVec.eq_of_getLsbD_eq
  intro i hi
  simp only [Fld.const16, Fmt.rlc, BitVec.getLsbD_append, BitVec.getLsbD_extractLsb']
  grind

end rlc

section rr

variable (op1 : BitVec 8) (op2 : BitVec 8) (n : BitVec 2) (s2 s1 d : BitVec 4)

@[simp] theorem fld_op1_rr : Fld.op1 (Fmt.rr op1 op2 n s2 s1 d) = op1 := by
  apply BitVec.eq_of_getLsbD_eq
  intro i hi
  simp only [Fld.op1, Fmt.rr, BitVec.getLsbD_append, BitVec.getLsbD_extractLsb']
  grind
@[simp] theorem fld_s1_rr : Fld.s1 (Fmt.rr op1 op2 n s2 s1 d) = s1 := by
  apply BitVec.eq_of_getLsbD_eq
  intro i hi
  simp only [Fld.s1, Fmt.rr, BitVec.getLsbD_append, BitVec.getLsbD_extractLsb']
  grind
@[simp] theorem fld_s2_rr : Fld.s2 (Fmt.rr op1 op2 n s2 s1 d) = s2 := by
  apply BitVec.eq_of_getLsbD_eq
  intro i hi
  simp only [Fld.s2, Fmt.rr, BitVec.getLsbD_append, BitVec.getLsbD_extractLsb']
  grind
@[simp] theorem fld_d_rr : Fld.d (Fmt.rr op1 op2 n s2 s1 d) = d := by
  apply BitVec.eq_of_getLsbD_eq
  intro i hi
  simp only [Fld.d, Fmt.rr, BitVec.getLsbD_append, BitVec.getLsbD_extractLsb']
  grind
@[simp] theorem fld_op2rr_rr : Fld.op2rr (Fmt.rr op1 op2 n s2 s1 d) = op2 := by
  apply BitVec.eq_of_getLsbD_eq
  intro i hi
  simp only [Fld.op2rr, Fmt.rr, BitVec.getLsbD_append, BitVec.getLsbD_extractLsb']
  grind
@[simp] theorem fld_n_rr : Fld.n (Fmt.rr op1 op2 n s2 s1 d) = n := by
  apply BitVec.eq_of_getLsbD_eq
  intro i hi
  simp only [Fld.n, Fmt.rr, BitVec.getLsbD_append, BitVec.getLsbD_extractLsb']
  grind

end rr

section rrpw

variable (op1 : BitVec 8) (op2 : BitVec 2) (p w : BitVec 5) (s2 s1 d : BitVec 4)

@[simp] theorem fld_op1_rrpw : Fld.op1 (Fmt.rrpw op1 op2 p w s2 s1 d) = op1 := by
  apply BitVec.eq_of_getLsbD_eq
  intro i hi
  simp only [Fld.op1, Fmt.rrpw, BitVec.getLsbD_append, BitVec.getLsbD_extractLsb']
  grind
@[simp] theorem fld_s1_rrpw : Fld.s1 (Fmt.rrpw op1 op2 p w s2 s1 d) = s1 := by
  apply BitVec.eq_of_getLsbD_eq
  intro i hi
  simp only [Fld.s1, Fmt.rrpw, BitVec.getLsbD_append, BitVec.getLsbD_extractLsb']
  grind
@[simp] theorem fld_s2_rrpw : Fld.s2 (Fmt.rrpw op1 op2 p w s2 s1 d) = s2 := by
  apply BitVec.eq_of_getLsbD_eq
  intro i hi
  simp only [Fld.s2, Fmt.rrpw, BitVec.getLsbD_append, BitVec.getLsbD_extractLsb']
  grind
@[simp] theorem fld_d_rrpw : Fld.d (Fmt.rrpw op1 op2 p w s2 s1 d) = d := by
  apply BitVec.eq_of_getLsbD_eq
  intro i hi
  simp only [Fld.d, Fmt.rrpw, BitVec.getLsbD_append, BitVec.getLsbD_extractLsb']
  grind
@[simp] theorem fld_op2rrpw_rrpw : Fld.op2rrpw (Fmt.rrpw op1 op2 p w s2 s1 d) = op2 := by
  apply BitVec.eq_of_getLsbD_eq
  intro i hi
  simp only [Fld.op2rrpw, Fmt.rrpw, BitVec.getLsbD_append, BitVec.getLsbD_extractLsb']
  grind
@[simp] theorem fld_pos_rrpw : Fld.pos (Fmt.rrpw op1 op2 p w s2 s1 d) = p := by
  apply BitVec.eq_of_getLsbD_eq
  intro i hi
  simp only [Fld.pos, Fmt.rrpw, BitVec.getLsbD_append, BitVec.getLsbD_extractLsb']
  grind
@[simp] theorem fld_width_rrpw : Fld.width (Fmt.rrpw op1 op2 p w s2 s1 d) = w := by
  apply BitVec.eq_of_getLsbD_eq
  intro i hi
  simp only [Fld.width, Fmt.rrpw, BitVec.getLsbD_append, BitVec.getLsbD_extractLsb']
  grind

end rrpw

section rrr

variable (op1 : BitVec 8) (op2 : BitVec 4) (n : BitVec 2) (s3 s2 s1 d : BitVec 4)

@[simp] theorem fld_op1_rrr : Fld.op1 (Fmt.rrr op1 op2 n s3 s2 s1 d) = op1 := by
  apply BitVec.eq_of_getLsbD_eq
  intro i hi
  simp only [Fld.op1, Fmt.rrr, BitVec.getLsbD_append, BitVec.getLsbD_extractLsb']
  grind
@[simp] theorem fld_s1_rrr : Fld.s1 (Fmt.rrr op1 op2 n s3 s2 s1 d) = s1 := by
  apply BitVec.eq_of_getLsbD_eq
  intro i hi
  simp only [Fld.s1, Fmt.rrr, BitVec.getLsbD_append, BitVec.getLsbD_extractLsb']
  grind
@[simp] theorem fld_s2_rrr : Fld.s2 (Fmt.rrr op1 op2 n s3 s2 s1 d) = s2 := by
  apply BitVec.eq_of_getLsbD_eq
  intro i hi
  simp only [Fld.s2, Fmt.rrr, BitVec.getLsbD_append, BitVec.getLsbD_extractLsb']
  grind
@[simp] theorem fld_s3_rrr : Fld.s3 (Fmt.rrr op1 op2 n s3 s2 s1 d) = s3 := by
  apply BitVec.eq_of_getLsbD_eq
  intro i hi
  simp only [Fld.s3, Fmt.rrr, BitVec.getLsbD_append, BitVec.getLsbD_extractLsb']
  grind
@[simp] theorem fld_d_rrr : Fld.d (Fmt.rrr op1 op2 n s3 s2 s1 d) = d := by
  apply BitVec.eq_of_getLsbD_eq
  intro i hi
  simp only [Fld.d, Fmt.rrr, BitVec.getLsbD_append, BitVec.getLsbD_extractLsb']
  grind
@[simp] theorem fld_op2rrr_rrr : Fld.op2rrr (Fmt.rrr op1 op2 n s3 s2 s1 d) = op2 := by
  apply BitVec.eq_of_getLsbD_eq
  intro i hi
  simp only [Fld.op2rrr, Fmt.rrr, BitVec.getLsbD_append, BitVec.getLsbD_extractLsb']
  grind

end rrr

section rrrw

variable (op1 : BitVec 8) (op2 : BitVec 3) (w : BitVec 5) (s3 s2 s1 d : BitVec 4)

@[simp] theorem fld_op1_rrrw : Fld.op1 (Fmt.rrrw op1 op2 w s3 s2 s1 d) = op1 := by
  apply BitVec.eq_of_getLsbD_eq
  intro i hi
  simp only [Fld.op1, Fmt.rrrw, BitVec.getLsbD_append, BitVec.getLsbD_extractLsb']
  grind
@[simp] theorem fld_s1_rrrw : Fld.s1 (Fmt.rrrw op1 op2 w s3 s2 s1 d) = s1 := by
  apply BitVec.eq_of_getLsbD_eq
  intro i hi
  simp only [Fld.s1, Fmt.rrrw, BitVec.getLsbD_append, BitVec.getLsbD_extractLsb']
  grind
@[simp] theorem fld_s2_rrrw : Fld.s2 (Fmt.rrrw op1 op2 w s3 s2 s1 d) = s2 := by
  apply BitVec.eq_of_getLsbD_eq
  intro i hi
  simp only [Fld.s2, Fmt.rrrw, BitVec.getLsbD_append, BitVec.getLsbD_extractLsb']
  grind
@[simp] theorem fld_s3_rrrw : Fld.s3 (Fmt.rrrw op1 op2 w s3 s2 s1 d) = s3 := by
  apply BitVec.eq_of_getLsbD_eq
  intro i hi
  simp only [Fld.s3, Fmt.rrrw, BitVec.getLsbD_append, BitVec.getLsbD_extractLsb']
  grind
@[simp] theorem fld_d_rrrw : Fld.d (Fmt.rrrw op1 op2 w s3 s2 s1 d) = d := by
  apply BitVec.eq_of_getLsbD_eq
  intro i hi
  simp only [Fld.d, Fmt.rrrw, BitVec.getLsbD_append, BitVec.getLsbD_extractLsb']
  grind
@[simp] theorem fld_op2rrrw_rrrw : Fld.op2rrrw (Fmt.rrrw op1 op2 w s3 s2 s1 d) = op2 := by
  apply BitVec.eq_of_getLsbD_eq
  intro i hi
  simp only [Fld.op2rrrw, Fmt.rrrw, BitVec.getLsbD_append, BitVec.getLsbD_extractLsb']
  grind
@[simp] theorem fld_width_rrrw : Fld.width (Fmt.rrrw op1 op2 w s3 s2 s1 d) = w := by
  apply BitVec.eq_of_getLsbD_eq
  intro i hi
  simp only [Fld.width, Fmt.rrrw, BitVec.getLsbD_append, BitVec.getLsbD_extractLsb']
  grind

end rrrw

section sys

variable (op1 : BitVec 8) (op2 : BitVec 6)

@[simp] theorem fld_op1_sys : Fld.op1 (Fmt.sys op1 op2) = op1 := by
  apply BitVec.eq_of_getLsbD_eq
  intro i hi
  simp only [Fld.op1, Fmt.sys, BitVec.getLsbD_append, BitVec.getLsbD_extractLsb']
  grind
@[simp] theorem fld_op2bo_sys : Fld.op2bo (Fmt.sys op1 op2) = op2 := by
  apply BitVec.eq_of_getLsbD_eq
  intro i hi
  simp only [Fld.op2bo, Fmt.sys, BitVec.getLsbD_append, BitVec.getLsbD_extractLsb']
  grind

end sys

/-- The bytes of a word, put together in memory order, give the word. -/
theorem join_wordBytes (w : Word) :
    w.extractLsb' 24 8 ++ w.extractLsb' 16 8 ++ w.extractLsb' 8 8 ++ w.extractLsb' 0 8 = w := by
  apply BitVec.eq_of_getLsbD_eq
  intro i hi
  simp only [BitVec.getLsbD_append, BitVec.getLsbD_extractLsb']
  grind

theorem join_halfBytes (h : Half) : h.extractLsb' 8 8 ++ h.extractLsb' 0 8 = h := by
  apply BitVec.eq_of_getLsbD_eq
  intro i hi
  simp only [BitVec.getLsbD_append, BitVec.getLsbD_extractLsb']
  grind

end Sys2Proof
end

