-- ==== Sys2Proof/Laws/PerInstr.lean ====
section
/-!
SUPPORT. Sys2Proof/Laws/PerInstr.lean: the family `Encoding`, one lemma per constructor of Instr: a well-formed
instruction has an encoding, and it is as long as the instruction says.
-/
namespace Sys2Proof.Laws.Encoding

/-- How many bytes a length is. -/
def byteCount : Len → Nat
  | .w16 => 2
  | .w32 => 4

/-- A well-formed instruction is encoded, in as many bytes as its length says. -/
def Statement (i : Instr) : Prop := i.wf = true → ∃ bs, encode i = some bs ∧ bs.length = byteCount i.len

/-- The cases of a constructor come down to this: its word is there. -/
theorem of_word {i : Instr} {w : Word} (hl : i.len = .w32) (hw : encode32 i = some w) :
    ∃ bs, encode i = some bs ∧ bs.length = byteCount i.len :=
  ⟨wordBytes w, by simp [encode, hl, hw], by simp [hl, wordBytes, byteCount]⟩

theorem of_half {i : Instr} {h : Half} (hl : i.len = .w16) (hw : encode16 i = some h) :
    ∃ bs, encode i = some bs ∧ bs.length = byteCount i.len :=
  ⟨halfBytes h, by simp [encode, hl, hw], by simp [hl, halfBytes, byteCount]⟩

theorem and_wf {p q : Bool} (h : (p && q) = true) : p = true ∧ q = true := by simpa using h

/-- Every mode but base + long offset has a word in every group. -/
theorem encodeMode_none (oa : BitVec 8) (p : BitVec 2) (ob op : BitVec 8) (k : BitVec 4) (r : Fin 16) (m : Mode)
    (h : m.encodable false = true) : ∃ w, encodeMode oa p ob op k none r m = some w := by
  cases m <;> first | exact ⟨_, rfl⟩ | cases h

/-- Every mode has a word in a group with a base + long offset format. -/
theorem encodeMode_some (oa : BitVec 8) (p : BitVec 2) (ob op : BitVec 8) (k : BitVec 4) (l : BitVec 8) (r : Fin 16)
    (m : Mode) : ∃ w, encodeMode oa p ob op k (some l) r m = some w := by
  cases m <;> exact ⟨_, rfl⟩

theorem addF (len : Len) (c : DReg) (d : DReg) (a : DReg) : Statement (.addF len c d a) := by
  intro h
  obtain rfl := of_decide_eq_true h
  exact of_word rfl rfl

theorem addc (len : Len) (c : DReg) (a : DReg) (op : Op2) : Statement (.addc len c a op) := by
  intro h
  obtain rfl := of_decide_eq_true h
  exact of_word rfl rfl

theorem addscA (len : Len) (c : AReg) (b : AReg) (a : DReg) (n : BitVec 2) : Statement (.addscA len c b a n) := by
  intro h
  obtain rfl := of_decide_eq_true h
  exact of_word rfl rfl

theorem addscAt (len : Len) (c : AReg) (b : AReg) (a : DReg) : Statement (.addscAt len c b a) := by
  intro h
  obtain rfl := of_decide_eq_true h
  exact of_word rfl rfl

theorem addx (len : Len) (c : DReg) (a : DReg) (op : Op2) : Statement (.addx len c a op) := by
  intro h
  obtain rfl := of_decide_eq_true h
  exact of_word rfl rfl

theorem bisr (len : Len) (const8 : BitVec 8) : Statement (.bisr len const8) := by
  intro h
  cases len
  · exact of_half rfl rfl
  · exact of_word rfl rfl

theorem call (len : Len) (target : Target) : Statement (.call len target) := by
  intro h
  obtain rfl := of_decide_eq_true h
  exact of_word rfl rfl

theorem clo (len : Len) (c : DReg) (a : DReg) : Statement (.clo len c a) := by
  intro h
  obtain rfl := of_decide_eq_true h
  exact of_word rfl rfl

theorem cls (len : Len) (c : DReg) (a : DReg) : Statement (.cls len c a) := by
  intro h
  obtain rfl := of_decide_eq_true h
  exact of_word rfl rfl

theorem clz (len : Len) (c : DReg) (a : DReg) : Statement (.clz len c a) := by
  intro h
  obtain rfl := of_decide_eq_true h
  exact of_word rfl rfl

theorem cmov (len : Len) (a : DReg) (op : MovSrc) : Statement (.cmov len a op) := by
  intro h
  cases len
  · cases op <;> exact of_half rfl rfl
  · cases op <;> exact of_word rfl rfl

theorem cmpF (len : Len) (c : DReg) (a : DReg) (b : DReg) : Statement (.cmpF len c a b) := by
  intro h
  obtain rfl := of_decide_eq_true h
  exact of_word rfl rfl

theorem debug (len : Len) : Statement (.debug len) := by
  intro h
  cases len
  · exact of_half rfl rfl
  · exact of_word rfl rfl

theorem disable (len : Len) : Statement (.disable len) := by
  intro h
  obtain rfl := of_decide_eq_true h
  exact of_word rfl rfl

theorem divF (len : Len) (c : DReg) (a : DReg) (b : DReg) : Statement (.divF len c a b) := by
  intro h
  obtain rfl := of_decide_eq_true h
  exact of_word rfl rfl

theorem dsync (len : Len) : Statement (.dsync len) := by
  intro h
  obtain rfl := of_decide_eq_true h
  exact of_word rfl rfl

theorem enable (len : Len) : Statement (.enable len) := by
  intro h
  obtain rfl := of_decide_eq_true h
  exact of_word rfl rfl

theorem eq (len : Len) (c : DReg) (a : DReg) (op : Op2) : Statement (.eq len c a op) := by
  intro h
  obtain rfl := of_decide_eq_true h
  exact of_word rfl rfl

theorem extrU (len : Len) (c : DReg) (a : DReg) (field : BitField) : Statement (.extrU len c a field) := by
  intro h
  obtain rfl := of_decide_eq_true h
  cases field <;> exact of_word rfl rfl

theorem ftoi (len : Len) (c : DReg) (a : DReg) : Statement (.ftoi len c a) := by
  intro h
  obtain rfl := of_decide_eq_true h
  exact of_word rfl rfl

theorem ftoq31 (len : Len) (c : DReg) (a : DReg) (b : DReg) : Statement (.ftoq31 len c a b) := by
  intro h
  obtain rfl := of_decide_eq_true h
  exact of_word rfl rfl

theorem ftou (len : Len) (c : DReg) (a : DReg) : Statement (.ftou len c a) := by
  intro h
  obtain rfl := of_decide_eq_true h
  exact of_word rfl rfl

theorem ge (len : Len) (c : DReg) (a : DReg) (op : Op2) : Statement (.ge len c a op) := by
  intro h
  obtain rfl := of_decide_eq_true h
  exact of_word rfl rfl

theorem isync (len : Len) : Statement (.isync len) := by
  intro h
  obtain rfl := of_decide_eq_true h
  exact of_word rfl rfl

theorem itof (len : Len) (c : DReg) (a : DReg) : Statement (.itof len c a) := by
  intro h
  obtain rfl := of_decide_eq_true h
  exact of_word rfl rfl

theorem jl (len : Len) (target : Target) : Statement (.jl len target) := by
  intro h
  obtain rfl := of_decide_eq_true h
  exact of_word rfl rfl

theorem ldA (len : Len) (a : AReg) (mode : Mode) : Statement (.ldA len a mode) := by
  intro h
  obtain ⟨hl, _⟩ := and_wf h
  obtain rfl := of_decide_eq_true hl
  obtain ⟨w, hw⟩ := encodeMode_some _ _ _ _ _ _ a mode
  exact of_word rfl hw

theorem ldB (len : Len) (a : DReg) (mode : Mode) : Statement (.ldB len a mode) := by
  intro h
  obtain ⟨hl, hm⟩ := and_wf h
  obtain rfl := of_decide_eq_true hl
  obtain ⟨w, hw⟩ := encodeMode_none _ _ _ _ _ a mode hm
  exact of_word rfl hw

theorem ldBu (len : Len) (a : DReg) (mode : Mode) : Statement (.ldBu len a mode) := by
  intro h
  obtain ⟨hl, hm⟩ := and_wf h
  obtain rfl := of_decide_eq_true hl
  obtain ⟨w, hw⟩ := encodeMode_none _ _ _ _ _ a mode hm
  exact of_word rfl hw

theorem ldD (len : Len) (a : DReg) (mode : Mode) : Statement (.ldD len a mode) := by
  intro h
  obtain ⟨hl, hm⟩ := and_wf h
  obtain rfl := of_decide_eq_true hl
  obtain ⟨w, hw⟩ := encodeMode_none _ _ _ _ _ a mode hm
  exact of_word rfl hw

theorem ldlcx (len : Len) (mode : CtxMode) : Statement (.ldlcx len mode) := by
  intro h
  obtain rfl := of_decide_eq_true h
  exact of_word rfl rfl

theorem ldmst (len : Len) (a : DReg) (mode : Mode) : Statement (.ldmst len a mode) := by
  intro h
  obtain ⟨hl, hm⟩ := and_wf h
  obtain rfl := of_decide_eq_true hl
  obtain ⟨w, hw⟩ := encodeMode_none _ _ _ _ _ a mode hm
  exact of_word rfl hw

theorem lducx (len : Len) (mode : CtxMode) : Statement (.lducx len mode) := by
  intro h
  obtain rfl := of_decide_eq_true h
  exact of_word rfl rfl

theorem lea (len : Len) (a : AReg) (mode : LeaMode) : Statement (.lea len a mode) := by
  intro h
  obtain rfl := of_decide_eq_true h
  cases mode <;> exact of_word rfl rfl

theorem lt (len : Len) (c : DReg) (a : DReg) (op : Op2) : Statement (.lt len c a op) := by
  intro h
  obtain rfl := of_decide_eq_true h
  exact of_word rfl rfl

theorem maddF (len : Len) (c : DReg) (d : DReg) (a : DReg) (b : DReg) : Statement (.maddF len c d a b) := by
  intro h
  obtain rfl := of_decide_eq_true h
  exact of_word rfl rfl

theorem mfcr (len : Len) (c : DReg) (off : BitVec 16) : Statement (.mfcr len c off) := by
  intro h
  obtain rfl := of_decide_eq_true h
  exact of_word rfl rfl

theorem msubF (len : Len) (c : DReg) (d : DReg) (a : DReg) (b : DReg) : Statement (.msubF len c d a b) := by
  intro h
  obtain rfl := of_decide_eq_true h
  exact of_word rfl rfl

theorem mtcr (len : Len) (off : BitVec 16) (a : DReg) : Statement (.mtcr len off a) := by
  intro h
  obtain rfl := of_decide_eq_true h
  exact of_word rfl rfl

theorem mulF (len : Len) (c : DReg) (a : DReg) (b : DReg) : Statement (.mulF len c a b) := by
  intro h
  obtain rfl := of_decide_eq_true h
  exact of_word rfl rfl

theorem ne (len : Len) (c : DReg) (a : DReg) (op : Op2) : Statement (.ne len c a op) := by
  intro h
  obtain rfl := of_decide_eq_true h
  exact of_word rfl rfl

theorem nop (len : Len) : Statement (.nop len) := by
  intro h
  cases len
  · exact of_half rfl rfl
  · exact of_word rfl rfl

theorem q31tof (len : Len) (c : DReg) (a : DReg) (b : DReg) : Statement (.q31tof len c a b) := by
  intro h
  obtain rfl := of_decide_eq_true h
  exact of_word rfl rfl

theorem qseedF (len : Len) (c : DReg) (a : DReg) : Statement (.qseedF len c a) := by
  intro h
  obtain rfl := of_decide_eq_true h
  exact of_word rfl rfl

theorem ret (len : Len) : Statement (.ret len) := by
  intro h
  cases len
  · exact of_half rfl rfl
  · exact of_word rfl rfl

theorem rfe (len : Len) : Statement (.rfe len) := by
  intro h
  cases len
  · exact of_half rfl rfl
  · exact of_word rfl rfl

theorem rfm (len : Len) : Statement (.rfm len) := by
  intro h
  obtain rfl := of_decide_eq_true h
  exact of_word rfl rfl

theorem rslcx (len : Len) : Statement (.rslcx len) := by
  intro h
  obtain rfl := of_decide_eq_true h
  exact of_word rfl rfl

theorem rstv (len : Len) : Statement (.rstv len) := by
  intro h
  obtain rfl := of_decide_eq_true h
  exact of_word rfl rfl

theorem stA (len : Len) (a : AReg) (mode : Mode) : Statement (.stA len a mode) := by
  intro h
  obtain ⟨hl, hm⟩ := and_wf h
  obtain rfl := of_decide_eq_true hl
  obtain ⟨w, hw⟩ := encodeMode_none _ _ _ _ _ a mode hm
  exact of_word rfl hw

theorem stB (len : Len) (a : DReg) (mode : Mode) : Statement (.stB len a mode) := by
  intro h
  obtain ⟨hl, hm⟩ := and_wf h
  obtain rfl := of_decide_eq_true hl
  obtain ⟨w, hw⟩ := encodeMode_none _ _ _ _ _ a mode hm
  exact of_word rfl hw

theorem stD (len : Len) (a : DReg) (mode : Mode) : Statement (.stD len a mode) := by
  intro h
  obtain ⟨hl, hm⟩ := and_wf h
  obtain rfl := of_decide_eq_true hl
  obtain ⟨w, hw⟩ := encodeMode_none _ _ _ _ _ a mode hm
  exact of_word rfl hw

theorem stT (len : Len) (off : BitVec 18) (bpos : BitVec 3) (b : Bool) : Statement (.stT len off bpos b) := by
  intro h
  obtain rfl := of_decide_eq_true h
  exact of_word rfl rfl

theorem stlcx (len : Len) (mode : CtxMode) : Statement (.stlcx len mode) := by
  intro h
  obtain rfl := of_decide_eq_true h
  exact of_word rfl rfl

theorem stucx (len : Len) (mode : CtxMode) : Statement (.stucx len mode) := by
  intro h
  obtain rfl := of_decide_eq_true h
  exact of_word rfl rfl

theorem subF (len : Len) (c : DReg) (d : DReg) (a : DReg) : Statement (.subF len c d a) := by
  intro h
  obtain rfl := of_decide_eq_true h
  exact of_word rfl rfl

theorem svlcx (len : Len) : Statement (.svlcx len) := by
  intro h
  obtain rfl := of_decide_eq_true h
  exact of_word rfl rfl

theorem swapW (len : Len) (a : DReg) (mode : Mode) : Statement (.swapW len a mode) := by
  intro h
  obtain ⟨hl, hm⟩ := and_wf h
  obtain rfl := of_decide_eq_true hl
  obtain ⟨w, hw⟩ := encodeMode_none _ _ _ _ _ a mode hm
  exact of_word rfl hw

theorem syscall (len : Len) (const8 : BitVec 8) : Statement (.syscall len const8) := by
  intro h
  obtain rfl := of_decide_eq_true h
  exact of_word rfl rfl

theorem tlbdemap (len : Len) (a : DReg) : Statement (.tlbdemap len a) := by
  intro h
  obtain rfl := of_decide_eq_true h
  exact of_word rfl rfl

theorem tlbflushA (len : Len) : Statement (.tlbflushA len) := by
  intro h
  obtain rfl := of_decide_eq_true h
  exact of_word rfl rfl

theorem tlbflushB (len : Len) : Statement (.tlbflushB len) := by
  intro h
  obtain rfl := of_decide_eq_true h
  exact of_word rfl rfl

theorem tlbmap (len : Len) (a : DReg) : Statement (.tlbmap len a) := by
  intro h
  obtain rfl := of_decide_eq_true h
  exact of_word rfl rfl

theorem tlbprobeA (len : Len) (a : DReg) : Statement (.tlbprobeA len a) := by
  intro h
  obtain rfl := of_decide_eq_true h
  exact of_word rfl rfl

theorem tlbprobeI (len : Len) (a : DReg) : Statement (.tlbprobeI len a) := by
  intro h
  obtain rfl := of_decide_eq_true h
  exact of_word rfl rfl

theorem trapsv (len : Len) : Statement (.trapsv len) := by
  intro h
  obtain rfl := of_decide_eq_true h
  exact of_word rfl rfl

theorem trapv (len : Len) : Statement (.trapv len) := by
  intro h
  obtain rfl := of_decide_eq_true h
  exact of_word rfl rfl

theorem updfl (len : Len) (a : DReg) : Statement (.updfl len a) := by
  intro h
  obtain rfl := of_decide_eq_true h
  exact of_word rfl rfl

theorem ldW (len : Len) (a : DReg) (mode : Mode) : Statement (.ldW len a mode) := by
  intro h
  obtain ⟨hl, _⟩ := and_wf h
  obtain rfl := of_decide_eq_true hl
  obtain ⟨w, hw⟩ := encodeMode_some _ _ _ _ _ _ a mode
  exact of_word rfl hw

theorem ldH (len : Len) (a : DReg) (mode : Mode) : Statement (.ldH len a mode) := by
  intro h
  obtain ⟨hl, hm⟩ := and_wf h
  obtain rfl := of_decide_eq_true hl
  obtain ⟨w, hw⟩ := encodeMode_none _ _ _ _ _ a mode hm
  exact of_word rfl hw

theorem ldHu (len : Len) (a : DReg) (mode : Mode) : Statement (.ldHu len a mode) := by
  intro h
  obtain ⟨hl, hm⟩ := and_wf h
  obtain rfl := of_decide_eq_true hl
  obtain ⟨w, hw⟩ := encodeMode_none _ _ _ _ _ a mode hm
  exact of_word rfl hw

theorem stW (len : Len) (a : DReg) (mode : Mode) : Statement (.stW len a mode) := by
  intro h
  obtain ⟨hl, _⟩ := and_wf h
  obtain rfl := of_decide_eq_true hl
  obtain ⟨w, hw⟩ := encodeMode_some _ _ _ _ _ _ a mode
  exact of_word rfl hw

theorem stH (len : Len) (a : DReg) (mode : Mode) : Statement (.stH len a mode) := by
  intro h
  obtain ⟨hl, hm⟩ := and_wf h
  obtain rfl := of_decide_eq_true hl
  obtain ⟨w, hw⟩ := encodeMode_none _ _ _ _ _ a mode hm
  exact of_word rfl hw

theorem ldDa (len : Len) (a : AReg) (mode : Mode) : Statement (.ldDa len a mode) := by
  intro h
  obtain ⟨hl, hm⟩ := and_wf h
  obtain rfl := of_decide_eq_true hl
  obtain ⟨w, hw⟩ := encodeMode_none _ _ _ _ _ a mode hm
  exact of_word rfl hw

theorem stDa (len : Len) (a : AReg) (mode : Mode) : Statement (.stDa len a mode) := by
  intro h
  obtain ⟨hl, hm⟩ := and_wf h
  obtain rfl := of_decide_eq_true hl
  obtain ⟨w, hw⟩ := encodeMode_none _ _ _ _ _ a mode hm
  exact of_word rfl hw

end Sys2Proof.Laws.Encoding
end

