-- ==== Sys2Proof/Laws/Words.lean ====
section
/-!
SUPPORT. Sys2Proof/Laws/Words.lean: words as bytes and back, and what a block of words written to memory reads as
(20_memory R130 to R132, 42 R433, R434).
-/
namespace Sys2Proof.Machine

/-- A word read from the bytes that a word was split into is that word. -/
theorem wordOf_wordBytes (w : Word) (rest : List Byte) : wordOf (wordBytes w ++ rest) = w := by
  apply BitVec.eq_of_getLsbD_eq
  intro i hi
  simp only [wordOf, wordBytes, List.cons_append, List.getD_cons_zero, List.getD_cons_succ, BitVec.getLsbD_append,
    BitVec.getLsbD_extractLsb']
  by_cases h1 : i < 8
  · simp [h1]
  · by_cases h2 : i < 16
    · have : i - 8 < 8 := by omega
      simp [h1, this, show 8 + (i - 8) = i by omega]
    · by_cases h3 : i < 24
      · have e1 : ¬ i - 8 < 8 := by omega
        have e2 : i - 8 - 8 < 8 := by omega
        simp [h1, e1, e2, show 16 + (i - 8 - 8) = i by omega]
      · have e1 : ¬ i - 8 < 8 := by omega
        have e2 : ¬ i - 8 - 8 < 8 := by omega
        have e3 : i - 8 - 8 - 8 < 8 := by omega
        simp [h1, e1, e2, e3, show 24 + (i - 8 - 8 - 8) = i by omega]

@[simp] theorem wordsBytes_nil : wordsBytes [] = [] := rfl
@[simp] theorem wordsBytes_cons (w : Word) (ws : List Word) : wordsBytes (w :: ws) = wordBytes w ++ wordsBytes ws := rfl

/-- Four bytes a word. -/
theorem wordsBytes_length (ws : List Word) : (wordsBytes ws).length = 4 * ws.length := by
  induction ws with
  | nil => rfl
  | cons w ws ih =>
    rw [wordsBytes_cons, List.length_append, ih, List.length_cons]
    simp [wordBytes]
    omega

/-- Word `k` of a block that words were written to is the k-th of them. -/
theorem wordAt_wordsBytes (ws : List Word) : ∀ k, k < ws.length → ws[k]? = some (wordAt (wordsBytes ws) k) := by
  induction ws with
  | nil => intro k hk; simp at hk
  | cons w ws ih =>
    intro k hk
    cases k with
    | zero => rw [wordsBytes_cons, wordAt]; simp [wordOf_wordBytes]
    | succ k =>
      have h := ih k (by simpa using hk)
      rw [List.getElem?_cons_succ, h, wordsBytes_cons, wordAt, wordAt]
      have : (wordBytes w ++ wordsBytes ws).drop (4 * (k + 1)) = (wordsBytes ws).drop (4 * k) := by
        rw [show 4 * (k + 1) = (wordBytes w).length + 4 * k by simp [wordBytes]; omega, List.drop_append,
          List.drop_of_length_le (by omega), Nat.add_sub_cancel_left, List.nil_append]
      rw [this]

@[simp] theorem addrs_length (a : Word) (n : Nat) : (addrs a n).length = n := by simp [addrs]

/-- Word `k` of a block of memory is the word at its address. -/
theorem wordAt_addrs (s : State) (a : Word) (n k : Nat) (h : 4 * k + 3 < n) :
    wordAt ((addrs a n).map s.memByte) k = s.memWord (a + BitVec.ofNat 32 (4 * k)) := by
  have get (j : Nat) (hj : j < n) : ((addrs a n).map s.memByte).getD j 0 = s.memByte (a + BitVec.ofNat 32 j) := by
    simp [addrs, hj]
  have e (j : Nat) (hj : j < 4) : (((addrs a n).map s.memByte).drop (4 * k)).getD j 0 =
      s.memByte (a + BitVec.ofNat 32 (4 * k) + BitVec.ofNat 32 j) := by
    rw [List.getD_eq_getElem?_getD, List.getElem?_drop, ← List.getD_eq_getElem?_getD, get _ (by omega),
      BitVec.add_assoc, ← BitVec.ofNat_add]
  rw [wordAt, wordOf, e 3 (by omega), e 2 (by omega), e 1 (by omega), e 0 (by omega), State.memWord]
  congr 1
  congr 1
  simp

/-- Bytes written to distinct addresses read back. -/
theorem memByte_setMemBytes_all (s : State) (pas : List Word) (bs : List Byte) (hw : Memory.wf s.mem = true)
    (hn : pas.Nodup) (hl : pas.length = bs.length) : pas.map (s.setMemBytes pas bs).memByte = bs := by
  apply List.ext_getElem
  · simpa using hl
  · intro i h1 h2
    rw [List.getElem_map]
    exact State.memByte_setMemBytes_mem s pas bs hn hw i (by simpa using h1) h2

/-- The first bytes of a context save area are bytes of it. -/
theorem addrs_four_mem {a pa : Word} (h : pa ∈ addrs a 4) : pa ∈ addrs a 64 := by
  simp only [addrs, List.mem_map, List.mem_range] at h ⊢
  obtain ⟨k, hk, rfl⟩ := h
  exact ⟨k, by omega, rfl⟩

/-- A save into memory writes the words of the context and moves FCX, PCXI and the pending FCD, and nothing else. -/
theorem saved_memory (u : Bool) (s : State) (h : AllMemory s (addrs (csaEa (ctxPtr s.fcx)) 64)) :
    saved u s = { s.setMemBytes (addrs (csaEa (ctxPtr s.fcx)) 64) (wordsBytes (ctxWords u s)) with
      pcxi := mkPcxi (icrCcpn s.icr) (icrIe s.icr) u (ctxPtr s.fcx),
      fcx := (ctxPtr (s.memWord (csaEa (ctxPtr s.fcx)))).setWidth 32,
      fcdPending := s.fcdPending || ctxPtr s.fcx = ctxPtr s.lcx } := by
  have h4 : AllMemory s (addrs (csaEa (ctxPtr s.fcx)) 4) := fun pa hp => h pa (addrs_four_mem hp)
  have e4 := physRead_memory h4
  have : wordOf ((addrs (csaEa (ctxPtr s.fcx)) 4).map s.memByte) = s.memWord (csaEa (ctxPtr s.fcx)) := by
    have := wordAt_addrs s (csaEa (ctxPtr s.fcx)) 4 0 (by omega)
    simpa [wordAt] using this
  simp only [saved, e4, physWrite_memory h, this]

/-- The upper registers after a save: the lower ones are kept whatever the implementation does. -/
theorem dropUpper_eq (s : State) :
    dropUpper s = { s with d := (dropUpper s).d, a := (dropUpper s).a, freeCount := (dropUpper s).freeCount } := by
  unfold dropUpper
  split <;> rfl

/-- Whether a byte is memory depends on the platform, DBGSR.DE and the number of service request nodes. -/
theorem plainMemory_congr {s t : State} (hp : t.platform = s.platform) (hd : dbgDe t.dbgsr = dbgDe s.dbgsr)
    (h1 : t.cpuSrc = s.cpuSrc) (h2 : t.sbSrc = s.sbSrc) (h3 : t.extraSrc = s.extraSrc) (pa : Word) :
    plainMemory t pa = plainMemory s pa := by
  have : nodeAt t = nodeAt s := by
    funext pa
    simp only [nodeAt, nodeCount, getNode, nodeAddr, hp, h1, h2, h3]
    rfl
  simp only [plainMemory, attrOf, busError, scratchRange, hp, hd, this]

/-- The context of a readable area is restored. -/
theorem restore_of_readable {u : Bool} {s : State} (h : CsaReadable s (csaEa (ctxPtr s.pcxi))) :
    restore u s = .ok (restored u s) :=
  (restore_eq_ok u s _).mpr ⟨h.allowed, ⟨(), (checkCsa_eq_ok _ _ _ _).mpr ⟨h.peripheral, h.window, fun _ => h.bus⟩⟩, rfl⟩

/-- The checks of a context load or store in order give its 64 bytes. -/
theorem checkCtx_of_ok {s : State} {m : CtxMode} {loads : Bool} (h : CtxOk s m loads) :
    checkCtx s (ctxMode m) loads = .ok (addrs (modeEa s (ctxMode m)) 64) := by
  have e1 : ((modeBase s (ctxMode m)).any (fun b => segment (modeEa s (ctxMode m)) ≠ segment b)) = false := by
    cases hb : modeBase s (ctxMode m) with
    | none => rfl
    | some b => simp [h.base b hb]
  have e2 : checkCsa s (modeEa s (ctxMode m)) loads = .ok () := (checkCsa_eq_ok _ _ _ _).mpr ⟨h.peripheral, h.window, h.bus⟩
  simp only [checkCtx, e1, h.within, h.allowed, h.aligned, h.nonzero, e2, ok_bind, ne_eq, not_true, decide_false,
    Bool.or_false, raiseIf_false]

end Sys2Proof.Machine
end

