-- ==== Sys2Proof/Tests/Slice0.lean ====
section
/-!
SUPPORT. Sys2Proof/Tests/Slice0.lean: words written out from 30 R320 and what they decode to, ill-formed terms that
WellFormed refuses, steps with the results that spec/95 and the rules' own examples print, and a witness for every statement
that has hypotheses.
-/
-- one theorem after another: the kernel evaluations below would else wait for each other in a thread each
set_option Elab.async false

namespace Sys2Proof.Tests

open Sys2Proof Sys2Proof.Machine

/-! ### Decoding -/

/-- Each word, with its number of bits, decodes to its instruction. -/
def readsAll (rows : List (Nat × Nat × Instr)) : Bool := rows.all fun r => decodeTableWord r.1 r.2.1 == some r.2.2

/-- Words of 43 R490 to R504, 41 R405 to R407 (formats SYS, SR, SC, RC, RLC) written out field by field (log 1, log 2). -/
theorem test_decode_system : readsAll [
    (16, 0x0000, .nop .w16),
    (32, 0x0000000D, .nop .w32),
    (16, 0xA000, .debug .w16),
    (32, 0x0100000D, .debug .w32),
    (32, 0x0140000D, .rfm .w32),
    (32, 0x0300000D, .enable .w32),
    (32, 0x0340000D, .disable .w32),
    (32, 0x0480000D, .dsync .w32),
    (32, 0x04C0000D, .isync .w32),
    (32, 0x0500000D, .trapv .w32),
    (32, 0x0540000D, .trapsv .w32),
    (32, 0x0000002F, .rstv .w32),
    (32, 0x008C50AD, .syscall .w32 0xC5),
    (32, 0x7FE2C04D, .mfcr .w32 7 0xFE2C),
    (32, 0x0FE249CD, .mtcr .w32 0xFE24 9)] = true := by decide +kernel

/-- Words of 42 R440 to R460 (formats B, RR, SYS, SR, SC, RC, ABS, BO) written out field by field (log 1, log 2). -/
theorem test_decode_calls : readsAll [
    (32, 0xCDEFAB6D, .call .w32 (.rel 0xABCDEF)),
    (32, 0xCDEFABED, .call .w32 (.abs 0xABCDEF)),
    (32, 0x00000D2D, .call .w32 (.ind 13)),
    (32, 0xCDEFAB5D, .jl .w32 (.rel 0xABCDEF)),
    (32, 0xCDEFABDD, .jl .w32 (.abs 0xABCDEF)),
    (32, 0x00200D2D, .jl .w32 (.ind 13)),
    (16, 0x9000, .ret .w16),
    (32, 0x0180000D, .ret .w32),
    (16, 0x8000, .rfe .w16),
    (32, 0x01C0000D, .rfe .w32),
    (32, 0x0200000D, .svlcx .w32),
    (32, 0x0240000D, .rslcx .w32),
    (16, 0xC5E0, .bisr .w16 0xC5),
    (32, 0x000C50AD, .bisr .w32 0xC5),
    (32, 0x7287A015, .stlcx .w32 (.abs 0x2A9C7)),
    (32, 0x7687A015, .stucx .w32 (.abs 0x2A9C7)),
    (32, 0xA9353049, .ldlcx .w32 (.base 3 0x2B5)),
    (32, 0xA9753049, .lducx .w32 (.base 3 0x2B5))] = true := by decide +kernel

/-- Words of 40 R354 to R363 (formats ABS, BO, BOL) written out field by field (log 1, log 2). -/
theorem test_decode_loads_and_stores : readsAll [
    (32, 0x7287AB05, .ldB .w32 11 (.abs 0x2A9C7)),
    (32, 0xA4356B09, .ldB .w32 11 (.preInc 6 0x2B5)),
    (32, 0xA8756B09, .ldBu .w32 11 (.base 6 0x2B5)),
    (32, 0x00406B29, .ldBu .w32 11 (.bitRev 6)),
    (32, 0xA0B56B09, .ldH .w32 11 (.postInc 6 0x2B5)),
    (32, 0xA4B56B29, .ldH .w32 11 (.circ 6 0x2B5)),
    (32, 0xA4F56B09, .ldHu .w32 11 (.preInc 6 0x2B5)),
    (32, 0x7E87AB05, .ldHu .w32 11 (.abs 0x2A9C7)),
    (32, 0x01006B29, .ldW .w32 11 (.bitRev 6)),
    (32, 0xA9356B09, .ldW .w32 11 (.base 6 0x2B5)),
    (32, 0xA5756B29, .ldD .w32 11 (.circ 6 0x2B5)),
    (32, 0xA1756B09, .ldD .w32 11 (.postInc 6 0x2B5)),
    (32, 0x7A87AB85, .ldA .w32 11 (.abs 0x2A9C7)),
    (32, 0xA5B56B09, .ldA .w32 11 (.preInc 6 0x2B5)),
    (32, 0xA9F56B09, .ldDa .w32 11 (.base 6 0x2B5)),
    (32, 0x01C06B29, .ldDa .w32 11 (.bitRev 6)),
    (32, 0xA0356B89, .stB .w32 11 (.postInc 6 0x2B5)),
    (32, 0xA4356BA9, .stB .w32 11 (.circ 6 0x2B5)),
    (32, 0xA4B56B89, .stH .w32 11 (.preInc 6 0x2B5)),
    (32, 0x7A87AB25, .stH .w32 11 (.abs 0x2A9C7)),
    (32, 0x01006BA9, .stW .w32 11 (.bitRev 6)),
    (32, 0xA9356B89, .stW .w32 11 (.base 6 0x2B5)),
    (32, 0xA5756BA9, .stD .w32 11 (.circ 6 0x2B5)),
    (32, 0xA1756B89, .stD .w32 11 (.postInc 6 0x2B5)),
    (32, 0x7A87ABA5, .stA .w32 11 (.abs 0x2A9C7)),
    (32, 0xA5B56B89, .stA .w32 11 (.preInc 6 0x2B5)),
    (32, 0xA9F56B89, .stDa .w32 11 (.base 6 0x2B5)),
    (32, 0x01C06BA9, .stDa .w32 11 (.bitRev 6)),
    (32, 0x999C6B19, .ldW .w32 11 (.baseLong 6 0x9A5C)),
    (32, 0x999C6B99, .ldA .w32 11 (.baseLong 6 0x9A5C)),
    (32, 0x999C6B59, .stW .w32 11 (.baseLong 6 0x9A5C))] = true := by decide +kernel

/-- Words of 40 R365 to R367 (formats ABS, ABSB, BO) written out field by field (log 1, log 2). -/
theorem test_decode_read_modify_writes : readsAll [
    (32, 0x7287ABE5, .swapW .w32 11 (.abs 0x2A9C7)),
    (32, 0xA0356B49, .swapW .w32 11 (.postInc 6 0x2B5)),
    (32, 0xA4356B69, .swapW .w32 11 (.circ 6 0x2B5)),
    (32, 0x7687AAE5, .ldmst .w32 10 (.abs 0x2A9C7)),
    (32, 0xA8756A49, .ldmst .w32 10 (.base 6 0x2B5)),
    (32, 0x00406A69, .ldmst .w32 10 (.bitRev 6)),
    (32, 0x7287ADD5, .stT .w32 0x2A9C7 5 true)] = true := by decide +kernel

/-- Words of 40 R370 to R373 (formats ABS, BO, BOL, RR, RRPW) written out field by field (log 1, log 2). -/
theorem test_decode_address_arithmetic : readsAll [
    (32, 0x7287ABC5, .lea .w32 11 (.abs 0x2A9C7)),
    (32, 0xAA356B49, .lea .w32 11 (.base 6 0x2B5)),
    (32, 0x999C6BD9, .lea .w32 11 (.baseLong 6 0x9A5C)),
    (32, 0xB6026501, .addscA .w32 11 6 5 2),
    (32, 0xB6206501, .addscAt .w32 11 6 5),
    (32, 0xBAEB0537, .extrU .w32 11 5 (.imm 0x15 0x0B)),
    (32, 0xB66B0557, .extrU .w32 11 5 (.reg 6 0x0B)),
    (32, 0xB6600517, .extrU .w32 11 5 (.pair 6))] = true := by decide +kernel

/-- Words of 41 R402 to R412 (formats RC, RR, SR; family) written out field by field (log 1, log 2). -/
theorem test_decode_integer : readsAll [
    (32, 0xB09A558B, .addx .w32 11 5 (.imm 0x1A5)),
    (32, 0xB040650B, .addx .w32 11 5 (.reg 6)),
    (32, 0xB0BA558B, .addc .w32 11 5 (.imm 0x1A5)),
    (32, 0xB050650B, .addc .w32 11 5 (.reg 6)),
    (32, 0xB21A558B, .eq .w32 11 5 (.imm 0x1A5)),
    (32, 0xB100650B, .eq .w32 11 5 (.reg 6)),
    (32, 0xB23A558B, .ne .w32 11 5 (.imm 0x1A5)),
    (32, 0xB110650B, .ne .w32 11 5 (.reg 6)),
    (32, 0xB25A558B, .lt .w32 11 5 (.imm 0x1A5)),
    (32, 0xB120650B, .lt .w32 11 5 (.reg 6)),
    (32, 0xB29A558B, .ge .w32 11 5 (.imm 0x1A5)),
    (32, 0xB140650B, .ge .w32 11 5 (.reg 6)),
    (32, 0xB1B0050F, .clz .w32 11 5),
    (32, 0xB1C0050F, .clo .w32 11 5),
    (32, 0xB1D0050F, .cls .w32 11 5),
    (16, 0x95AA, .cmov .w16 5 (.imm 9)),
    (16, 0x952A, .cmov .w16 5 (.reg 9))] = true := by decide +kernel

/-- Words of 44 R530 to R537 (format RR) written out field by field (log 1, log 2). -/
theorem test_decode_mmu : readsAll [
    (32, 0x00000575, .tlbdemap .w32 5),
    (32, 0x00400075, .tlbflushA .w32),
    (32, 0x00500075, .tlbflushB .w32),
    (32, 0x00800575, .tlbprobeA .w32 5),
    (32, 0x00900575, .tlbprobeI .w32 5),
    (32, 0x04000475, .tlbmap .w32 4)] = true := by decide +kernel

/-- Words of 45 R578 to R600 (formats RRR, RR; family) written out field by field (log 1, log 2). -/
theorem test_decode_floating_point : readsAll [
    (32, 0xB721056B, .addF .w32 11 7 5),
    (32, 0xB731056B, .subF .w32 11 7 5),
    (32, 0xB761656B, .maddF .w32 11 7 5 6),
    (32, 0xB771656B, .msubF .w32 11 7 5 6),
    (32, 0xB001654B, .cmpF .w32 11 5 6),
    (32, 0xB041654B, .mulF .w32 11 5 6),
    (32, 0xB051654B, .divF .w32 11 5 6),
    (32, 0xB111654B, .ftoq31 .w32 11 5 6),
    (32, 0xB151654B, .q31tof .w32 11 5 6),
    (32, 0xB101054B, .ftoi .w32 11 5),
    (32, 0xB121054B, .ftou .w32 11 5),
    (32, 0xB141054B, .itof .w32 11 5),
    (32, 0xB191054B, .qseedF .w32 11 5),
    (32, 0x00C1054B, .updfl .w32 5)] = true := by decide +kernel

/-- The 32-bit CMOV: SEL with D[15] and the destination, and SELN with a constant of four signed bits (30 R300, log 2); a
condition in another register, or a wider constant, is no CMOV. -/
theorem test_decode_conditional_move : (readsAll [
    (32, 0x1F40122B, .cmov .w32 1 (.reg 2)),
    (32, 0x4FBF94AB, .cmov .w32 4 (.imm 9))] &&
    [0x1E40122B, 0x1F40322B, 0x4FBF04AB].all fun w => (decodeTableWord 32 w).isNone) = true := by decide +kernel

/-- Words no row of 30 R320 has: they decode to nothing (opcode and function fields outside the tables). -/
theorem test_decode_refuses : [(16, 0x1000), (32, 0xFFFFFFFF), (32, 0x0FC0000D), (32, 0xB0F0650B), (32, 0x8000650B)].all
    (fun r : Nat × Nat => (decodeTableWord r.1 r.2).isNone) = true := by decide +kernel

/-! ### Well-formedness: an ill-formed term for each check -/

/-- Every instruction with one length is refused at the other. -/
theorem test_wellFormed_lengths : [
    .addF .w16 1 2 3, .addc .w16 1 2 (.reg 3), .addscA .w16 1 2 3 0, .addscAt .w16 1 2 3, .addx .w16 1 2 (.imm 3),
    .call .w16 (.rel 4), .clo .w16 1 2, .cls .w16 1 2, .clz .w16 1 2, .cmpF .w16 1 2 3,
    .disable .w16, .divF .w16 1 2 3, .dsync .w16, .enable .w16, .eq .w16 1 2 (.reg 3), .extrU .w16 1 2 (.pair 4),
    .ftoi .w16 1 2, .ftoq31 .w16 1 2 3, .ftou .w16 1 2, .ge .w16 1 2 (.reg 3), .isync .w16, .itof .w16 1 2,
    .jl .w16 (.abs 4), .ldA .w16 1 (.abs 4), .ldB .w16 1 (.abs 4), .ldBu .w16 1 (.abs 4), .ldD .w16 2 (.abs 4),
    .ldlcx .w16 (.abs 64), .ldmst .w16 2 (.abs 4), .lducx .w16 (.abs 64), .lea .w16 1 (.abs 4),
    .lt .w16 1 2 (.reg 3), .maddF .w16 1 2 3 4, .mfcr .w16 1 0xFE04, .msubF .w16 1 2 3 4, .mtcr .w16 0xFE04 1,
    .mulF .w16 1 2 3, .ne .w16 1 2 (.reg 3), .q31tof .w16 1 2 3, .qseedF .w16 1 2, .rfm .w16, .rslcx .w16,
    .rstv .w16, .stA .w16 1 (.abs 4), .stB .w16 1 (.abs 4), .stD .w16 2 (.abs 4), .stT .w16 4 1 true,
    .stlcx .w16 (.abs 64), .stucx .w16 (.abs 64), .subF .w16 1 2 3, .svlcx .w16, .swapW .w16 1 (.abs 4),
    .syscall .w16 1, .tlbdemap .w16 1, .tlbflushA .w16, .tlbflushB .w16, .tlbmap .w16 2, .tlbprobeA .w16 1,
    .tlbprobeI .w16 1, .trapsv .w16, .trapv .w16, .updfl .w16 1, .ldW .w16 1 (.abs 4), .ldH .w16 1 (.abs 4),
    .ldHu .w16 1 (.abs 4), .stW .w16 1 (.abs 4), .stH .w16 1 (.abs 4), .ldDa .w16 2 (.abs 4), .stDa .w16 2 (.abs 4)].all
    (fun i : Instr => !i.wf) = true := by decide

/-- The loads, stores and read-modify-writes without a BOL row are refused with the base + long offset mode. -/
theorem test_wellFormed_modes : [
    .ldB .w32 1 (.baseLong 3 4), .ldBu .w32 1 (.baseLong 3 4), .ldD .w32 2 (.baseLong 3 4),
    .ldmst .w32 2 (.baseLong 3 4), .stA .w32 1 (.baseLong 3 4), .stB .w32 1 (.baseLong 3 4),
    .stD .w32 2 (.baseLong 3 4), .swapW .w32 1 (.baseLong 3 4), .ldH .w32 1 (.baseLong 3 4),
    .ldHu .w32 1 (.baseLong 3 4), .stH .w32 1 (.baseLong 3 4), .ldDa .w32 2 (.baseLong 3 4),
    .stDa .w32 2 (.baseLong 3 4)].all
    (fun i : Instr => !i.wf) = true := by decide

/-- The instructions that have both lengths (30 R320). -/
theorem test_wellFormed_accepts : [.nop .w16, .nop .w32, .bisr .w16 1, .bisr .w32 1, .cmov .w16 1 (.reg 2), .cmov .w32 1 (.reg 2),
    .debug .w16, .debug .w32, .ret .w16,
    .ret .w32, .rfe .w16, .rfe .w32].all Instr.wf = true := by decide

/-! ### One step -/

/-- A word put into memory, little endian. -/
def putWord (s : State) (a w : Word) : State := s.setMemBytes (addrs a 4) (wordBytes w)
/-- Data registers set. -/
def withD (l : List (DReg × Word)) (s : State) : State := l.foldl (fun s p => s.setD p.1 p.2) s
/-- Address registers set. -/
def withA (l : List (AReg × Word)) (s : State) : State := l.foldl (fun s p => s.setA p.1 p.2) s
/-- An outcome is a next state with a property. -/
def reaches (o : Host.Outcome State Fault Refusal) (p : State → Bool) : Bool :=
  match o with
  | .next t => p t
  | .fault _ => false
  | .refused _ => false
/-- An outcome is the trap of a class and a TIN, at the vector table of `ready`. -/
def traps (o : Host.Outcome State Fault Refusal) (tcn tin : Nat) : Bool :=
  reaches o fun t => t.pc == BitVec.ofNat 32 (0x80001000 + 32 * tcn) && t.dr 15 == BitVec.ofNat 32 tin

/-- The reset state with a free list of three context areas at D0001000H and vector tables. -/
def ready : State :=
  putWord (putWord (putWord { State.reset with
    fcx := 0xD0040, lcx := 0xD0042, btv := 0x80001000, biv := 0x80002000, isp := 0xD0003000 }
    0xD0001000 0xD0041) 0xD0001040 0xD0042) 0xD0001080 0
/-- `ready` with the two words of spec/95 2.2 at D0000100H, A[2] at the second. -/
def data : State :=
  withA [(2, 0xD0000104)] (putWord (putWord ready 0xD0000100 0x89ABCDEF) 0xD0000104 0x00FF7F80)
/-- `ready` in User-0 mode. -/
def user : State := { ready with psw := 0x380 }

/-- The first instruction after reset: `step` runs the word that `withFetchWord` places. -/
theorem test_step_runs_placed_words :
    (reaches (step (State.reset.withFetchWord 32 0x7FE2C04D)) fun t => t.pc == 0x80000004 && t.dr 7 == 0) &&
    (reaches (step (State.reset.withFetchWord 16 0x95AA)) fun t => t.pc == 0x80000002) = true := by decide +kernel

/-- J and JA of 30 R320 jump and link nothing. -/
theorem test_plain_jumps :
    (reaches (step (ready.withFetchWord 32 0xCDEFAB1D)) fun t => t.pc == 0x7F579BDE && t.ar 11 == 0) &&
    (reaches (step (ready.withFetchWord 32 0xCDEFAB9D)) fun t => t.pc == 0xA0179BDE && t.ar 11 == 0) = true := by decide +kernel

/-- Loads: the values of spec/95 2.2. -/
theorem test_loads : [
    reaches (exec (.ldB .w32 4 (.abs 0x34103)) data) (·.dr 4 == 0xFFFFFF89),
    reaches (exec (.ldBu .w32 4 (.abs 0x34103)) data) (·.dr 4 == 0x89),
    reaches (exec (.ldH .w32 4 (.abs 0x34102)) data) (·.dr 4 == 0xFFFF89AB),
    reaches (exec (.ldHu .w32 4 (.abs 0x34102)) data) (·.dr 4 == 0x89AB),
    reaches (exec (.ldW .w32 4 (.abs 0x34102)) data) (·.dr 4 == 0x7F8089AB),
    reaches (exec (.ldW .w32 4 (.preInc 2 0x3FC)) data) (fun t => t.dr 4 == 0x89ABCDEF && t.ar 2 == 0xD0000100),
    reaches (exec (.ldD .w32 4 (.abs 0x34100)) data) (fun t => t.dr 4 == 0x89ABCDEF && t.dr 5 == 0x00FF7F80),
    reaches (exec (.ldA .w32 4 (.abs 0x34104)) data) (·.ar 4 == 0x00FF7F80),
    reaches (exec (.ldDa .w32 4 (.abs 0x34100)) data) (fun t => t.ar 4 == 0x89ABCDEF && t.ar 5 == 0x00FF7F80),
    traps (exec (.ldW .w32 4 (.abs 0x34101)) data) 2 4, traps (exec (.ldW .w32 4 (.abs 0)) data) 1 6].all id = true := by
  decide +kernel

/-- Stores and read-modify-writes: spec/95 2.2, 2.4, P1. -/
theorem test_stores : [
    reaches (exec (.stB .w32 1 (.abs 0x34101)) (withD [(1, 0x123456A5)] data)) (·.memWord 0xD0000100 == 0x89ABA5EF),
    reaches (exec (.stH .w32 1 (.abs 0x34102)) (withD [(1, 0x123456A5)] data)) (·.memWord 0xD0000100 == 0x56A5CDEF),
    reaches (exec (.stW .w32 1 (.abs 0x34106)) (withD [(1, 0x11223344)] data)) (·.memWord 0xD0000106 == 0x11223344),
    reaches (exec (.stD .w32 6 (.abs 0x34100)) (withD [(6, 1), (7, 2)] data))
      (fun t => t.memWord 0xD0000100 == 1 && t.memWord 0xD0000104 == 2),
    reaches (exec (.stA .w32 2 (.abs 0x34100)) data) (·.memWord 0xD0000100 == 0xD0000104),
    reaches (exec (.stDa .w32 2 (.postInc 4 8)) (withA [(3, 5), (4, 0xD0000100)] data))
      (fun t => t.memWord 0xD0000104 == 5 && t.ar 4 == 0xD0000108),
    reaches (exec (.ldmst .w32 6 (.abs 0x34100)) (withD [(6, 0x11112222), (7, 0xFFFF)] data))
      (·.memWord 0xD0000100 == 0x89AB2222),
    reaches (exec (.swapW .w32 1 (.abs 0x34100)) (withD [(1, 0x55)] data))
      (fun t => t.memWord 0xD0000100 == 0x55 && t.dr 1 == 0x89ABCDEF),
    reaches (exec (.stT .w32 0x34101 0 false) data) (·.memWord 0xD0000100 == 0x89ABCCEF)].all id = true := by
  decide +kernel

/-- Circular and bit-reverse addressing: spec/95 2.3. -/
theorem test_circular_and_bit_reverse : [
    reaches (exec (.ldW .w32 4 (.circ 2 4)) (withA [(2, 0xD0000200), (3, 0x0010000C)] data)) (·.ar 3 == 0x00100000),
    reaches (exec (.ldW .w32 4 (.circ 2 0x3FC)) (withA [(2, 0xD0000200), (3, 0x00100000)] data)) (·.ar 3 == 0x0010000C),
    bitRevNext 0x600 0x400 == 0x100, bitRevNext 14 8 == 1].all id = true := by
  decide +kernel

/-- Address arithmetic, bit fields, integer instructions: spec/95 2.5, 2.6. -/
theorem test_arithmetic : [
    reaches (exec (.addscA .w32 4 5 1 3) (withA [(5, 0xD0000100)] (withD [(1, 0xFFFFFFFF)] ready))) (·.ar 4 == 0xD00000F8),
    reaches (exec (.addscAt .w32 4 5 1) (withA [(5, 0xD0000100)] (withD [(1, 0x53)] ready))) (·.ar 4 == 0xD0000108),
    reaches (exec (.lea .w32 4 (.base 2 0x1FF)) data) (·.ar 4 == 0xD0000303),
    reaches (exec (.extrU .w32 4 1 (.imm 8 12)) (withD [(1, 0x12345678)] ready)) (·.dr 4 == 0x456),
    reaches (exec (.extrU .w32 4 1 (.imm 0 0)) (withD [(1, 0x12345678)] ready)) (·.dr 4 == 0x12345678),
    reaches (exec (.addx .w32 4 1 (.reg 2)) (withD [(1, 0x7FFFFFFF), (2, 1)] ready))
      (fun t => t.dr 4 == 0x80000000 && t.psw == 0x78000B80),
    reaches (exec (.addx .w32 4 1 (.imm 0x1FF)) (withD [(1, 1)] ready)) (fun t => t.dr 4 == 0 && t.psw == 0x80000B80),
    reaches (exec (.addc .w32 4 1 (.reg 2)) (withD [(1, 0xFFFFFFFF)] { ready with psw := 0x80000B80 }))
      (fun t => t.dr 4 == 0 && t.psw == 0x80000B80),
    reaches (exec (.eq .w32 4 1 (.imm 5)) (withD [(1, 5)] ready)) (·.dr 4 == 1),
    reaches (exec (.ne .w32 4 1 (.reg 1)) (withD [(1, 5), (4, 7)] ready)) (·.dr 4 == 0),
    reaches (exec (.lt .w32 4 1 (.reg 2)) (withD [(1, 0x80000000), (2, 1)] ready)) (·.dr 4 == 1),
    reaches (exec (.ge .w32 4 1 (.reg 2)) (withD [(1, 0xFFFFFFFF), (4, 7)] ready)) (·.dr 4 == 0),
    reaches (exec (.clo .w32 4 1) (withD [(1, 0xFFFF0000)] ready)) (·.dr 4 == 16),
    reaches (exec (.clz .w32 4 1) ready) (·.dr 4 == 32),
    reaches (exec (.cls .w32 4 1) (withD [(1, 0xC0000000)] ready)) (·.dr 4 == 1),
    reaches (exec (.cmov .w16 4 (.imm 9)) (withD [(15, 1)] ready)) (·.dr 4 == 0xFFFFFFF9),
    reaches (exec (.rstv .w32) { ready with psw := 0xF8000B80 }) (·.psw == 0x80000B80),
    traps (exec (.trapv .w32) { ready with psw := 0x40000B80 }) 5 1,
    traps (exec (.trapsv .w32) { ready with psw := 0x20000B80 }) 5 2].all id = true := by
  decide +kernel

/-- Calls, returns, contexts, the system call: spec/95 P2, P3, 2.8, 2.9. -/
theorem test_contexts : [
    reaches (exec (.call .w32 (.rel 8)) ready) (fun t => t.pc == 0x80000010 && t.psw == 0xB81 && t.pcxi == 0x4D0040 &&
      t.fcx == 0xD0041 && t.ar 11 == 0x80000004 && t.memWord 0xD0001004 == 0xB80),
    traps (exec (.call .w32 (.rel 8)) { ready with psw := 0xBBF }) 3 2,
    reaches (exec (.jl .w32 (.abs 0x800004)) ready) (fun t => t.pc == 0x80000008 && t.ar 11 == 0x80000004),
    traps (exec (.ret .w32) { ready with psw := 0xB81, pcxi := 0x400000 }) 3 5,
    traps (exec (.ret .w16) { ready with psw := 0xB80, pcxi := 0x4D0042 }) 3 3,
    reaches (exec (.rfe .w16) { withA [(11, 0x80000F00)] ready with psw := 0xB01, pcxi := 0x4D0042 })
      (·.pc == 0x80000F00),
    traps (exec (.rfe .w16) { ready with psw := 0xB81, pcxi := 0x4D0042 }) 3 7,
    traps (exec (.rslcx .w32) { ready with pcxi := 0x4D0042 }) 3 6,
    reaches (exec (.svlcx .w32) ready) (fun t => t.pcxi == 0x0D0040 && t.memWord 0xD0001004 == 0),
    reaches (exec (.bisr .w16 3) { ready with icr := 5 }) (fun t => t.icr == 0x103 && t.pcxi == 0x050D0040),
    reaches (exec (.stlcx .w32 (.abs 0x34140)) (withA [(11, 0xB11)] ready)) (·.memWord 0xD0000144 == 0xB11),
    reaches (exec (.stucx .w32 (.abs 0x34140)) (withA [(10, 0xA10)] ready)) (·.memWord 0xD0000148 == 0xA10),
    reaches (exec (.ldlcx .w32 (.abs 0x34140)) (putWord ready 0xD0000148 7)) (·.ar 2 == 7),
    reaches (exec (.lducx .w32 (.abs 0x34140)) (putWord ready 0xD000014C 7)) (·.ar 11 == 7),
    traps (exec (.stlcx .w32 (.abs 0x34120)) ready) 2 4,
    reaches (exec (.syscall .w32 0x2A) { ready with psw := 0x480, icr := 0x105 }) (fun t => t.pc == 0x800010C0 &&
      t.psw == 0xA80 && t.pcxi == 0x05CD0040 && t.dr 15 == 0x2A && t.ar 10 == 0xD0003000 && t.icr == 5)].all id = true := by
  decide +kernel

/-- Core registers, interrupts, debug: spec/95 2.7, 2.10, 2.15. -/
theorem test_system : [
    reaches (exec (.mtcr .w32 0xFE24 1) (withD [(1, 0x800010E1)] ready)) (·.btv == 0x800010E0),
    reaches (exec (.mtcr .w32 0xFE04 1) (withD [(1, 0xFFFFFFFF)] ready)) (·.psw == 0xFF003FFF),
    traps (exec (.mtcr .w32 0xFE14 1) { ready with psw := 0x780 }) 1 1,
    reaches (exec (.mfcr .w32 2 0xFE08) user) (·.dr 2 == 0x80000000),
    reaches (exec (.enable .w32) ready) (·.icr == 0x100), traps (exec (.disable .w32) user) 1 1,
    reaches (exec (.rfm .w32) ready) (·.pc == 0x80000004),
    reaches (exec (.debug .w16) { ready with dbgsr := 1, swevt := 2 })
      (fun t => dbgHalted t.dbgsr && t.pc == 0x80000002),
    reaches (step { ready with icr := 0x100, cpuSrc := ready.cpuSrc.set 0 ⟨true, true, 0, 5⟩ })
      (fun t => t.pc == 0x800020A0 && t.icr == 5 && t.ar 11 == 0x80000000 && !t.cpuSrc[0].srr)].all id = true := by
  decide +kernel

/-- The TTE of spec/95 2.13: a 4 Kbyte page 12345000H under ASI 5, frame 80010000H. -/
def page : Tte :=
  { v := true, asi := 5, vpn := 0x48D14, ppn := 0x200040, xe := true, we := true, re := true, g := false, c := true,
    psz := 1 }
/-- `ready` with that TTE at index 0, page sizes 4 and 64 Kbyte, translation off. -/
def mmu : State := { ready with mmuCon := 0x7A, mmuAsi := 5, tlbA := ready.tlbA.set 0 page }

/-- The MMU: spec/95 2.13. -/
theorem test_mmu : [
    physOf { mmu with mmuCon := 0x7B } 0x12345678 == some 0x80010678,
    physOf { mmu with mmuCon := 0x7B, mmuAsi := 6 } 0x12345678 == none,
    reaches (exec (.tlbdemap .w32 4) (withD [(4, 0x12345ABC)] mmu)) (fun t => !(t.tlbA ++ t.tlbB).any (·.v)),
    reaches (exec (.tlbprobeA .w32 4) (withD [(4, 0x12345FFC)] mmu))
      (fun t => t.mmuTpa == 0xF5200040 && t.mmuTva.extractLsb' 0 22 == 0x48D14),
    reaches (exec (.tlbprobeI .w32 4) mmu) (fun t => t.mmuTpa == 0xF5200040 && t.mmuTpx == 0),
    reaches (exec (.tlbflushA .w32) mmu) (fun t => !t.tlbA.any (·.v)),
    traps (exec (.tlbflushA .w32) { mmu with psw := 0x780 }) 1 1,
    traps (exec (.tlbflushB .w32) { mmu with mmuCon := 0x8000 }) 2 2].all id = true := by
  decide +kernel

/-- Floating point: the results that 45 R606 and spec/95 2.14 print, each with the state of PSW[31:26]. -/
theorem test_floating_point : ([
    (.addF .w32 4 1 2, 0xB80, 0x3F800001, 0x33800000, 0x3F800002, 0x84000B80),
    (.addF .w32 4 1 2, 0xB80, 0x7F800000, 0xFF800000, 0x7FC00001, 0xC0000B80),
    (.subF .w32 4 1 2, 0x2000B80, 0x3F800000, 0x3F800000, 0x80000000, 0x2000B80),
    (.subF .w32 4 1 2, 0xB80, 0x00800001, 0x00800000, 0, 0x8C000B80),
    (.mulF .w32 4 1 2, 0xB80, 0x7F7FFFFF, 0x40000000, 0x7F800000, 0xA4000B80),
    (.divF .w32 4 1 2, 0xB80, 0xBF800000, 0, 0xFF800000, 0x90000B80),
    (.divF .w32 4 1 2, 0x1000B80, 0xBF800000, 0x40400000, 0xBEAAAAAA, 0x85000B80),
    (.maddF .w32 4 1 2 2, 0xB80, 0xBF800000, 0x3F800001, 0x34800000, 0x84000B80),
    (.msubF .w32 4 1 2 2, 0xB80, 0x3F800000, 0x3F800001, 0xB4800000, 0x84000B80),
    (.qseedF .w32 4 1, 0xB80, 0xBF800000, 0, 0x7FC00004, 0xC0000B80),
    (.ftoi .w32 4 1, 0xB80, 0xC0200000, 0, 0xFFFFFFFE, 0x84000B80),
    (.ftou .w32 4 1, 0xB80, 0x4F800000, 0, 0xFFFFFFFF, 0xC0000B80),
    (.itof .w32 4 1, 0xB80, 0x01000001, 0, 0x4B800000, 0x84000B80),
    (.q31tof .w32 4 1 2, 0xB80, 0x80000000, 1, 0xC0000000, 0xB80),
    (.ftoq31 .w32 4 1 2, 0xB80, 0x3EAAAAAB, 0, 0x2AAAAAC0, 0xB80),
    (.cmpF .w32 4 1 2, 0xB80, 1, 0, 0x14, 0xB80)] : List (Instr × Word × Word × Word × Word × Word)).all
    (fun (i, p, x, y, r, q) => reaches (exec i (withD [(1, x), (2, y)] { ready with psw := p }))
      fun t => t.dr 4 == r && t.psw == q) = true := by decide +kernel

/-- UPDFL: spec/95 2.14. -/
theorem test_updfl :
    reaches (exec (.updfl .w32 1) (withD [(1, 0x0301)] ready)) (·.psw == 0x01000B80) = true := by decide +kernel

/-! ### Witnesses: each statement's hypotheses hold together somewhere, clause by clause -/

theorem next_of_reaches {o : Host.Outcome State Fault Refusal} (h : reaches o (fun _ => true) = true) :
    ∃ t, o = .next t := by
  cases o with
  | next t => exact ⟨t, rfl⟩
  | fault r => cases h
  | refused r => cases h

theorem ok_of_toOption {ε α : Type} {x : Except ε α} {a : α} (h : x.toOption = some a) : x = .ok a := by
  cases x with
  | ok b => cases h; rfl
  | error e => cases h

theorem allMemory_of_all {s : State} {pas : List Word} (h : pas.all (plainMemory s) = true) : AllMemory s pas :=
  fun pa hp => List.all_eq_true.mp h pa hp

theorem forall_of_all {l : List Word} {p : Word → Bool} {b : Bool} (h : (l.all fun x => p x == b) = true) :
    ∀ x ∈ l, p x = b := fun x hx => by simpa using List.all_eq_true.mp h x hx

/-- The context area at the head of the free list of `ready`. -/
theorem ready_memory : AllMemory ready (addrs (csaEa (ctxPtr ready.fcx)) 64) := allMemory_of_all (by decide +kernel)

/-- `ready` with a translation for no page, the pc in a lower segment. -/
def virtual : State := { ready with mmuCon := 0x7B, pc := 0x1000 }
/-- `ready` with the range protection on and no range enabled. -/
def guarded : State := { ready with syscon := 2 }
/-- `ready` with the debug controller on. -/
def debugged : State := { ready with dbgsr := 1, dcx := 0xDE800000 }

theorem test_witness_DecodingInvertsEncoding : (Instr.ldW .w32 15 (.baseLong 15 0xFFFF)).wf = true := by decide

theorem test_witness_DecodedInstructionsAreWellFormed : decode [0x0D, 0, 0, 3] = .ok (.enable .w32, []) :=
  ok_of_toOption (by decide +kernel)

theorem test_witness_StepRunsTheDecodedInstruction :
    (ready.Quiet ∧ fetch ready.atInstruction = .ok [0, 0] ∧ decode [0, 0] = .ok (.nop .w16, []) ∧
      NoTrigger ready.atInstruction (.nop .w16) ∧ dbgDe ready.dbgsr = false) ∧
    (debugged.Quiet ∧ fetch debugged.atInstruction = .ok [0, 0] ∧ NoTrigger debugged.atInstruction (.nop .w16)) :=
  ⟨⟨by constructor <;> decide +kernel, ok_of_toOption (by decide +kernel), ok_of_toOption (by decide +kernel),
    ⟨.inr (by decide +kernel), by decide +kernel⟩, by decide⟩,
   ⟨by constructor <;> decide +kernel, ok_of_toOption (by decide +kernel), ⟨.inr (by decide +kernel), by decide +kernel⟩⟩⟩

/-- J, JA and a word of no row; a global register may be written by what is not named. -/
theorem test_witness_UnknownWordsFollowTheDecodeParameter :
    (∀ b : Fin 3, let first : Byte := [0x1D, 0x9D, 0xFF].getD b.val 0
      let s := ready.withFetchWord 32 (BitVec.toNat (0xFFFFFF#24 ++ first))
      s.Quiet ∧ dbgDe s.dbgsr = false ∧ fetch s.atBoundary = .ok [first, 0xFF, 0xFF, 0xFF] ∧
      ∃ e, decode [first, 0xFF, 0xFF, 0xFF] = .error e) ∧ ready.psw.getLsbD 8 = true ∧ user.psw.getLsbD 8 = true := by
  refine ⟨fun b => ?_, by decide, by decide⟩
  match b with
  | 0 => exact ⟨by constructor <;> decide +kernel, by decide +kernel, ok_of_toOption (by decide +kernel), ⟨_, rfl⟩⟩
  | 1 => exact ⟨by constructor <;> decide +kernel, by decide +kernel, ok_of_toOption (by decide +kernel), ⟨_, rfl⟩⟩
  | 2 => exact ⟨by constructor <;> decide +kernel, by decide +kernel, ok_of_toOption (by decide +kernel), ⟨_, rfl⟩⟩

/-- The TTE of spec/95 2.13 for 12345000H under ASI 5. -/
def codePage : Tte :=
  { v := true, asi := 5, vpn := 0x48D14, ppn := 0x200040, xe := true, we := true, re := true, g := false, c := true, psz := 1 }
/-- `ready` in virtual mode with that TTE; a 32-bit instruction's first half-word in the page's last one, the pc there. -/
def paged (psw pc : Word) (t : Tte) : State :=
  { ready.setMemByte 0x80010FFE 0x0D with mmuCon := 0x7B, mmuAsi := 5, tlbA := ready.tlbA.set 0 t, pc := pc, psw := psw }

theorem test_witness_FetchTraps_translation :
    (∀ s ∈ [virtual], s.Quiet ∧ dbgDe s.dbgsr = false ∧ usesPte s s.pc = true ∧ lookupTte s s.pc = none) ∧
    (let s := paged 0xB80 0x12345000 { codePage with xe := false }
     s.Quiet ∧ dbgDe s.dbgsr = false ∧ usesPte s s.pc = true ∧
       ∃ t, lookupTte s s.pc = some t ∧ t.xe = false) ∧
    (let s := paged 0x380 0x80000000 codePage
     s.Quiet ∧ dbgDe s.dbgsr = false ∧ virtualMode s = true ∧ s.pc.getLsbD 31 = true ∧ isUser0 s = true ∧
       attrOf s s.pc ≠ .peripheral) := by
  refine ⟨fun s h => ?_, ⟨?_, ?_, ?_, ⟨{ codePage with xe := false }, ?_, rfl⟩⟩, ⟨?_, ?_⟩⟩ <;> first
    | (rw [List.mem_singleton.mp h]; exact ⟨by constructor <;> decide +kernel, by decide +kernel⟩)
    | decide +kernel
    | (constructor <;> decide +kernel)

/-- The range protection of a fetch, with translation off and on. -/
theorem test_witness_FetchTraps_ranges :
    ∀ b : Bool, let s : State := if b then { guarded with mmuCon := 0x7B } else guarded
      s.Quiet ∧ dbgDe s.dbgsr = false ∧ usesPte s s.pc = false ∧ (virtualMode s = true → isUser0 s = false) ∧
      attrOf s s.pc ≠ .peripheral ∧ attrOf s s.pc ≠ .emulator ∧ sysProten s.syscon = true ∧
      protSetMissing s = false ∧ ∀ n : Fin 4, n.val < s.platform.nCodeRanges →
        ¬ ((protSet s).cprL[n] ≤ s.pc ∧ s.pc < (protSet s).cprU[n] ∧
          (protSet s).cpm.getLsbD (8 * n.val + 7) = true) := by
  intro b
  cases b <;> exact ⟨by constructor <;> decide +kernel, by decide +kernel⟩

theorem fetchOk_of_direct {s : State} (hu : usesPte s s.pc = false) (hr : headChecked s s.pc = false)
    (hv : virtualMode s = false ∨ isUser0 s = false) : FetchOk s := by
  constructor
  · intro h; rw [hu] at h; cases h
  · intro h1 _ h2; rcases hv with hv | hv <;> simp_all
  · intro h; rw [hr] at h; cases h

theorem no_fetchError {s : State} {pa : Word} (h : ((addrs pa 2).all fun b => attrOf s b != .peripheral && !busError s b) = true) :
    ¬ FetchError s pa := fun ⟨b, hb, he⟩ => by
  have := List.all_eq_true.mp h b hb
  simp_all

/-- Peripheral space, and a bus error on the second byte. -/
theorem test_witness_FetchTraps_errors (b : Bool) :
    let s : State := if b then { ready with pc := 0xF0000000 } else
      { ready with pc := 0xD0000100, platform := { ready.platform with dsprBytes := 0x101 } }
    FetchOk s ∧ physOf s s.pc = some s.pc ∧ FetchError s s.pc := by
  cases b
  · exact ⟨fetchOk_of_direct (by decide +kernel) (by decide +kernel) (.inl (by decide +kernel)), by decide +kernel,
      0xD0000101, by decide +kernel, .inr (by decide +kernel)⟩
  · exact ⟨fetchOk_of_direct (by decide +kernel) (by decide +kernel) (.inl (by decide +kernel)), by decide +kernel,
      0xF0000000, by decide +kernel, .inl (by decide +kernel)⟩

/-- A second half-word in the next page, which has no TTE or one without XE. -/
theorem test_witness_FetchTraps_next_page :
    (let s := paged 0xB80 0x12345FFE codePage
     FetchOk s ∧ physOf s s.pc = some 0x80010FFE ∧ ¬ FetchError s 0x80010FFE ∧
       (s.memByte 0x80010FFE).getLsbD 0 = true ∧ usesPte s (s.pc + 2) = true ∧ lookupTte s (s.pc + 2) = none) ∧
    (let s : State := { paged 0xB80 0x12345FFE codePage with
       tlbB := ready.tlbB.set 0 { codePage with vpn := 0x48D18, xe := false } }
     usesPte s (s.pc + 2) = true ∧ (lookupTte s (s.pc + 2)).any (fun t => !t.xe) = true) := by
  refine ⟨⟨⟨fun _ => ⟨codePage, by decide +kernel⟩, by decide +kernel, by decide +kernel⟩, by decide +kernel,
    no_fetchError (by decide +kernel), by decide +kernel, by decide +kernel, by decide +kernel⟩, by decide +kernel,
    by decide +kernel⟩

/-- A second half-word beyond the scratchpad. -/
theorem test_witness_FetchTraps_next_error :
    let s : State := { ready.setMemByte 0xD00000FE 0x0D with
       pc := 0xD00000FE, platform := { ready.platform with dsprBytes := 0x100 } }
    FetchOk s ∧ physOf s s.pc = some s.pc ∧ ¬ FetchError s s.pc ∧ (s.memByte s.pc).getLsbD 0 = true ∧
       physOf s (s.pc + 2) = some (s.pc + 2) ∧ virtualMode s = false ∧ FetchError s (s.pc + 2) :=
  ⟨fetchOk_of_direct (by decide +kernel) (by decide +kernel) (.inl (by decide +kernel)), by decide +kernel,
    no_fetchError (by decide +kernel), by decide +kernel, by decide +kernel, by decide +kernel, 0xD0000100,
    by decide +kernel, .inr (by decide +kernel)⟩

theorem test_witness_PendingEventsAreTakenInOrder :
    dbgHalted (sampled { ready with dbgsr := 2 }).dbgsr = true ∧ eventsNow ready = [] ∧ dbgHalted ready.dbgsr = false ∧
    (∀ nmi dae fcd : Bool,
      let s := { ready with nmiPending := nmi, daePending := dae, fcdPending := fcd }
      eventsNow s = [] ∧ dbgHalted s.dbgsr = false) ∧
    (let s := { ready with icr := 0x104, cpuSrc := ready.cpuSrc.set 0 ⟨true, true, 0, 5⟩ }
     eventsNow s = [] ∧ dbgHalted s.dbgsr = false ∧ s.nmiPending = false ∧ s.daePending = false ∧ s.fcdPending = false ∧
       interruptReady s.atBoundary = true) := by decide +kernel

theorem ready_inv : ready.Inv := by constructor <;> decide +kernel

theorem test_witness_StepKeepsTheInvariant : ready.Inv ∧ ∃ t, step ready = .next t :=
  ⟨ready_inv, next_of_reaches (by decide +kernel)⟩

theorem test_witness_ResetHasThePrintedValues : getNode (State.resetOf Platform.default) 7 = some Src.reset ∧
    Platform.default.hasMmu = true := by decide

/-- Both ends of the address space; bytes at both ends of a segment of memory. -/
theorem test_witness_MemoryIsCanonicalAndReadsBack :
    (Memory.wf [(0, 1), (0xFFFFFFFF, 2)] = true ∧
      ∀ x, x < 2 ^ 32 → Memory.get [(0, 1), (0xFFFFFFFF, 2)] x = Memory.get [(0, 1), (0xFFFFFFFF, 2)] x) ∧
    (Memory.wf ready.mem = true ∧ AllMemory ready [0xDFFFFFFF, 0x00000000] ∧
      ([0xDFFFFFFF, 0x00000000] : List Word).Nodup ∧
      ([0xDFFFFFFF, 0x00000000] : List Word).length = ([1, 2] : List Byte).length) :=
  ⟨⟨by decide, fun _ _ => rfl⟩, by decide +kernel, allMemory_of_all (by decide +kernel), by decide, rfl⟩

theorem test_witness_AssertionInstructions :
    (∀ w : Word, w = 0x40000B80 ∨ w = 0x20000B80 → saveFails { ready with psw := w } = false) ∧
    (0x40000B80#32).getLsbD 30 = true ∧ (0x20000B80#32).getLsbD 30 = false ∧ (0x20000B80#32).getLsbD 29 = true ∧
    (0x40000B80#32).getLsbD 29 = false :=
  ⟨fun w h => by rcases h with rfl | rfl <;> decide +kernel, by decide, by decide, by decide, by decide⟩

/-- A global register with PSW.GW, another one without; each global register without. -/
theorem test_witness_AddressArithmetic :
    ((isGlobal 9 = true → pswGw ready.psw = true) ∧ (isGlobal 7 = true → pswGw 0xA80 = true)) ∧
    ∀ c : AReg, c = 0 ∨ c = 1 ∨ c = 8 ∨ c = 9 → (0xA80#32).getLsbD 8 = false := by decide

/-- An odd pair; the last bit alone and the whole register; a field past the end, and an empty one; a pair that names the
whole register. -/
theorem test_witness_BitFieldExtract :
    fieldOddPair (.pair 15) = true ∧
    (let f : BitField := .imm 31 1
     fieldOddPair f = false ∧ 1 ≤ (fieldOf ready f).2 ∧ (fieldOf ready f).1 + (fieldOf ready f).2 ≤ 32) ∧
    (let f : BitField := .imm 0 0
     fieldOddPair f = false ∧ 1 ≤ (fieldOf ready f).2 ∧ (fieldOf ready f).1 + (fieldOf ready f).2 ≤ 32) ∧
    (let f : BitField := .imm 31 2
     fieldOddPair f = false ∧ ¬ (1 ≤ (fieldOf ready f).2 ∧ (fieldOf ready f).1 + (fieldOf ready f).2 ≤ 32)) ∧
    (let f : BitField := .pair 14
     fieldOddPair f = false ∧ ¬ (1 ≤ (fieldOf ready f).2 ∧ (fieldOf ready f).1 + (fieldOf ready f).2 ≤ 32)) ∧
    ((14 : DReg).val % 2 = 0 ∧ (withD [(15, 32)] ready).dr 14 = 0 ∧ (withD [(15, 32)] ready).dr (pairOdd 14) = 32) := by
  decide +kernel

theorem test_witness_BufferIndices : (15 : Nat) < 16 ∧
    ((3 : Half).toNat < (4 : Half).toNat ∧ ((-3) : BitVec 10).toInt.natAbs < (4 : Half).toNat) ∧
    ((0 : Half).toNat < (1 : Half).toNat ∧ (0 : BitVec 10).toInt.natAbs < (1 : Half).toNat) ∧
    ((0x200 : BitVec 10).toInt.natAbs = 512 ∧ (3 : Half).toNat + (0x200 : BitVec 10).toInt < 0 ∧
      ((8 : Half).toNat : Int) ≤ (7 : Half).toNat + (0x1FF : BitVec 10).toInt) ∧
    ((0xFFFE : Half).toNat < (0xFFFF : Half).toNat ∧ (0x200 : BitVec 10).toInt.natAbs < (0xFFFF : Half).toNat) := by
  decide

/-- The access of LD.W at an absolute address. -/
def wordAccess (off : BitVec 18) : DataAccess := ⟨.abs off, .load 4 2, false, false⟩

theorem abs_registersOk (s : State) (off : BitVec 18) : RegistersOk s (wordAccess off) :=
  ⟨rfl, nofun, ⟨rfl, nofun⟩⟩

/-- The access of LD.W through a mode. -/
def loadWord (m : Mode) : DataAccess := ⟨m, .load 4 2, false, false⟩
/-- The access of LD.D through a mode. -/
def loadDouble (m : Mode) : DataAccess := ⟨m, .loadD, false, false⟩
/-- `data` with a circular pair P[2]: base, then length and index. -/
def ring (base pair : Word) : State := withA [(2, base), (3, pair)] data

theorem inSegment_of_all {l : List Word} {g : BitVec 4} (h : (l.all fun x => x.extractLsb' 28 4 == g) = true) :
    ∀ x ∈ l, x.extractLsb' 28 4 = g := fun x hx => by simpa using List.all_eq_true.mp h x hx

/-- An odd pair; a global register without PSW.GW. -/
theorem test_witness_DataAccessTrapsInOrder_registers :
    (dataAccess (.ldD .w32 15 (.abs 4)) = some ⟨.abs 4, .loadD, true, false⟩ ∧ modeOddPair (.circ 15 0) = true) ∧
    (let x : DataAccess := ⟨.abs 4, .load 4 4, false, true⟩
     dataAccess (.ldA .w32 9 (.abs 4)) = some x ∧ x.odd = false ∧ modeOddPair x.mode = false ∧ x.global = true ∧
       (0xA80#32).getLsbD 8 = false) := by decide

/-- MEM: the base register in the segment after the address; a word whose last byte is in the next segment, and one that ends
with its segment, which is no MEM. -/
theorem test_witness_DataAccessTrapsInOrder_segments :
    (let x := loadWord (.base 2 0x200)
     dataAccess (.ldW .w32 1 x.mode) = some x ∧ RegistersOk data x ∧
       (modeEa data x.mode).extractLsb' 28 4 ≠ (data.ar 2).extractLsb' 28 4) ∧
    (let x := loadWord (.base 2 0)
     let s := withA [(2, 0xDFFFFFFD)] data
     dataAccess (.ldW .w32 1 x.mode) = some x ∧ RegistersOk s x ∧
       ∃ va ∈ modeBytes s x.mode 4, va.extractLsb' 28 4 ≠ (modeEa s x.mode).extractLsb' 28 4) ∧
    (let s := withA [(2, 0xDFFFFFFC)] data
     ∀ va ∈ modeBytes s (.base 2 0) 4, va.extractLsb' 28 4 = (modeEa s (.base 2 0)).extractLsb' 28 4) :=
  ⟨⟨rfl, ⟨rfl, nofun, ⟨rfl, nofun⟩⟩, by decide +kernel⟩, ⟨rfl, ⟨rfl, nofun, ⟨rfl, nofun⟩⟩, 0xE0000000, by decide +kernel⟩,
   inSegment_of_all (by decide +kernel)⟩

/-- ALN: an odd word; a buffer at 4 modulo 8, one of 6 bytes, and one that ends at its index, each in one segment; the last
index of a buffer, where none of them holds and the access wraps. -/
theorem test_witness_DataAccessTrapsInOrder_alignment :
    (let x := wordAccess 0x34101
     dataAccess (.ldW .w32 1 x.mode) = some x ∧ RegistersOk data x ∧ (modeEa data x.mode).toNat % 2 ≠ 0 ∧
       ∀ va ∈ modeBytes data x.mode 4, va.extractLsb' 28 4 = (modeEa data x.mode).extractLsb' 28 4) ∧
    (let x := loadWord (.circ 2 0)
     dataAccess (.ldW .w32 1 x.mode) = some x ∧
     ∀ k : Fin 3, let p := #v[(0xD0000204#32, 0x00080000#32), (0xD0000200, 0x00060000), (0xD0000200, 0x00080008)][k]
       let s := ring p.1 p.2
       RegistersOk s x ∧ (modeEa s x.mode).extractLsb' 28 4 = (s.ar 2).extractLsb' 28 4 ∧
       (∀ va ∈ modeBytes s x.mode 4, va.extractLsb' 28 4 = (modeEa s x.mode).extractLsb' 28 4) ∧
       ((s.ar 2).toNat % 8 ≠ 0 ∨ ((s.ar 3).extractLsb' 16 16).toNat % 4 ≠ 0 ∨
         ((s.ar 3).extractLsb' 16 16).toNat ≤ ((s.ar 3).extractLsb' 0 16).toNat)) ∧
    AddressOk (ring 0xD0000200 0x00080006) (.circ 2 0) (.load 4 2) :=
  ⟨⟨rfl, abs_registersOk _ _, by decide +kernel, inSegment_of_all (by decide +kernel)⟩,
   ⟨rfl, fun k => ⟨⟨rfl, nofun, ⟨rfl, nofun⟩⟩, by revert k; decide +kernel,
     inSegment_of_all (by revert k; decide +kernel), by revert k; decide +kernel⟩⟩,
   by constructor <;> decide +kernel⟩

/-- MPN at address 0. A double-word at 2 modulo 4 in the scratchpad, up to its last byte, and in cached memory; in segment BH,
which is not cached, it is ALN. -/
theorem test_witness_DataAccessTrapsInOrder_doubles :
    (let x := wordAccess 0
     dataAccess (.ldW .w32 1 x.mode) = some x ∧ RegistersOk data x ∧ modeEa data x.mode = 0 ∧
       (modeEa data x.mode).toNat % 2 = 0 ∧
       ∀ va ∈ modeBytes data x.mode 4, va.extractLsb' 28 4 = (modeEa data x.mode).extractLsb' 28 4) ∧
    (let x := loadDouble (.base 2 0)
     dataAccess (.ldD .w32 2 x.mode) = some x ∧ RegistersOk data x) ∧
    (let scratch := withA [(2, 0xD00000FE)] { data with platform := { data.platform with dsprBytes := 0x100 } }
     let cached := withA [(2, 0x80000002)] data
     physOf scratch 0xD00000FE = some 0xD00000FE ∧ attrOf scratch 0xD00000FE ≠ .cacheable ∧
       physOf cached 0x80000002 = some 0x80000002 ∧ attrOf cached 0x80000002 = .cacheable ∧
       usesPte cached 0x80000002 = false ∧ modeEa cached (.base 2 0) = 0x80000002) ∧
    (let s := withA [(2, 0xB0000002)] data
     physOf s 0xB0000002 = some 0xB0000002 ∧ attrOf s 0xB0000002 ≠ .cacheable ∧ modeEa s (.base 2 0) = 0xB0000002 ∧
       (0xB0000002#32).toNat % 4 ≠ 0) :=
  ⟨⟨rfl, abs_registersOk _ _, by decide +kernel, by decide +kernel, inSegment_of_all (by decide +kernel)⟩,
   ⟨rfl, ⟨rfl, nofun, ⟨rfl, nofun⟩⟩⟩, by decide +kernel, by decide +kernel⟩

/-- A circular access that ends with its buffer, and one that runs two bytes beyond it. -/
theorem test_witness_AddressingModes :
    (let s := ring 0xD0000200 0x00080004
     modeBytes s (.circ 2 4) 4 = [0xD0000204, 0xD0000205, 0xD0000206, 0xD0000207] ∧
       modeHeads s (.circ 2 4) 4 = [0xD0000204]) ∧
    (let s := ring 0xD0000200 0x00080006
     modeBytes s (.circ 2 4) 4 = [0xD0000206, 0xD0000207, 0xD0000200, 0xD0000201] ∧
       modeHeads s (.circ 2 4) 4 = [0xD0000206, 0xD0000200]) := by decide +kernel

theorem translationOk_of_direct {s : State} {m : Mode} {kind : AccessKind}
    (h : ((modeBytes s m kind.size).all fun va => !usesPte s va && !upperDenied s va) = true) : TranslationOk s m kind := by
  have byte (va : Word) (hb : va ∈ modeBytes s m kind.size) : usesPte s va = false ∧ upperDenied s va = false := by
    simpa using List.all_eq_true.mp h va hb
  refine ⟨fun va hb => ?_, fun va hb => ⟨?_, (byte va hb).2⟩, fun va hb hu => ?_⟩
  · simp [physOf, (byte va hb).1]
  · simp [pteDenies, (byte va hb).1]
  · rw [(byte va hb).1] at hu; cases hu

theorem rangesOk_of_off {s : State} {m : Mode} {kind : AccessKind} (h : sysProten s.syscon = false) :
    RangesOk s m kind := by
  have hh (a : Word) : headChecked s a = false := by simp [headChecked, rangeChecked, h]
  constructor <;> intros <;> simp_all

/-- A read and a write with no range enabled, translation off and on; the write alone where one range allows reads, up to its
last byte. -/
theorem test_witness_RangeProtectionTraps :
    (∀ b : Bool, let x := wordAccess 0x34100
     let s : State := if b then { guarded with mmuCon := 0x7B } else guarded
     dataAccess (.ldW .w32 1 x.mode) = some x ∧ RegistersOk s x ∧ AddressOk s x.mode x.kind ∧
       TranslationOk s x.mode x.kind ∧ sysProten s.syscon = true ∧ protSetMissing s = false ∧
       x.kind.readRange = true ∧ ∃ a ∈ modeHeads s x.mode x.kind.size,
         (usesPte s a = false ∧ attrOf s a ≠ .peripheral ∧ attrOf s a ≠ .emulator) ∧ ¬ ∃ n : Fin 4,
           n.val < s.platform.nDataRanges ∧ (protSet s).dprL[n] ≤ a ∧ a < (protSet s).dprU[n] ∧
           (protSet s).dpm.getLsbD (8 * n.val + 6) = true) ∧
    (let x : DataAccess := ⟨.abs 0x34100, .rmw, false, false⟩
     let s : State := { guarded with prot := guarded.prot.set 0 { ProtSet.reset with
       dprU := ProtSet.reset.dprU.set 3 0xD0000101, dpm := 0x40000000 } }
     dataAccess (.swapW .w32 1 x.mode) = some x ∧ RegistersOk s x ∧ AddressOk s x.mode x.kind ∧
       TranslationOk s x.mode x.kind ∧ sysProten s.syscon = true ∧ protSetMissing s = false ∧ x.kind.writes = true ∧
       (∀ a ∈ modeHeads s x.mode x.kind.size, ∃ n : Fin 4, n.val < s.platform.nDataRanges ∧ (protSet s).dprL[n] ≤ a ∧
         a < (protSet s).dprU[n] ∧ (protSet s).dpm.getLsbD (8 * n.val + 6) = true) ∧
       ∃ a ∈ modeHeads s x.mode x.kind.size,
         (usesPte s a = false ∧ attrOf s a ≠ .peripheral ∧ attrOf s a ≠ .emulator) ∧ ¬ ∃ n : Fin 4,
         n.val < s.platform.nDataRanges ∧ (protSet s).dprL[n] ≤ a ∧ a < (protSet s).dprU[n] ∧
         (protSet s).dpm.getLsbD (8 * n.val + 7) = true) := by
  refine ⟨fun b => ?_, ⟨rfl, ⟨rfl, nofun, ⟨rfl, nofun⟩⟩, by constructor <;> decide +kernel,
      translationOk_of_direct (by decide +kernel), by decide +kernel, by decide +kernel, rfl, ?_, 0xD0000100,
      by decide +kernel, by decide +kernel, by decide +kernel⟩⟩
  · cases b <;> exact ⟨rfl, abs_registersOk _ _, by constructor <;> decide +kernel,
      translationOk_of_direct (by decide +kernel), by decide +kernel, by decide +kernel, rfl, 0xD0000100,
      by decide +kernel, by decide +kernel, by decide +kernel⟩
  · intro a h
    have : a = 0xD0000100 := List.mem_singleton.mp h
    subst this
    decide +kernel

theorem test_witness_TranslationTraps :
    (let x := wordAccess 0x34
     dataAccess (.ldW .w32 1 x.mode) = some x ∧ RegistersOk virtual x ∧ AddressOk virtual x.mode x.kind ∧
       ∃ va ∈ modeBytes virtual x.mode x.kind.size, usesPte virtual va = true ∧ lookupTte virtual va = none) ∧
    (let x : DataAccess := ⟨.base 5 0, .load 4 2, false, false⟩
     let s : State := withA [(5, 0x12345000)] { mmu with mmuCon := 0x7B, tlbA := mmu.tlbA.set 0 { page with re := false } }
     dataAccess (.ldW .w32 1 x.mode) = some x ∧ RegistersOk s x ∧ AddressOk s x.mode x.kind ∧
       (∀ va ∈ modeBytes s x.mode x.kind.size, usesPte s va = true → lookupTte s va ≠ none) ∧
       ∃ va ∈ modeBytes s x.mode x.kind.size, usesPte s va = true ∧ ∃ t, lookupTte s va = some t ∧
         x.kind.reads = true ∧ t.re = false) ∧
    (let x := wordAccess 0x34100
     let s : State := { mmu with mmuCon := 0x7B, psw := 0x380 }
     dataAccess (.ldW .w32 1 x.mode) = some x ∧ RegistersOk s x ∧ AddressOk s x.mode x.kind ∧
       (∀ va ∈ modeBytes s x.mode x.kind.size, usesPte s va = true → lookupTte s va ≠ none) ∧
       ∃ va ∈ modeBytes s x.mode x.kind.size, virtualMode s = true ∧ va.getLsbD 31 = true ∧ isUser0 s = true ∧
         attrOf s va ≠ .peripheral) := by
  refine ⟨⟨rfl, abs_registersOk _ _, by constructor <;> decide +kernel, 0x34, by decide +kernel, by decide +kernel,
      by decide +kernel⟩,
    ⟨rfl, ⟨rfl, nofun, ⟨rfl, nofun⟩⟩, by constructor <;> decide +kernel, ?_,
      0x12345000, by decide +kernel, by decide +kernel, { page with re := false }, by decide +kernel, rfl, rfl⟩,
    ⟨rfl, abs_registersOk _ _, by constructor <;> decide +kernel, ?_, 0xD0000100, by decide +kernel, by decide +kernel,
      by decide, by decide +kernel, by decide +kernel⟩⟩
  · intro va h _ hn
    have := forall_of_all (b := true) (p := fun va => (lookupTte (withA [(5, 0x12345000)]
      { mmu with mmuCon := 0x7B, tlbA := mmu.tlbA.set 0 { page with re := false } }) va).isSome) (by decide +kernel) va h
    rw [hn] at this
    cases this
  · intro va h hu
    have := forall_of_all (b := false) (p := usesPte { mmu with mmuCon := 0x7B, psw := 0x380 }) (by decide +kernel) va h
    rw [hu] at this
    cases this

/-- A User-0 access to peripheral space, translation off and on; the last word below the CSFR window and its first one; a load
and a store beyond an implemented scratchpad of 256 bytes. -/
theorem test_witness_PeripheralAndBusErrors :
    (∀ b : Bool, let x := wordAccess 0x3C100
     let s : State := if b then { user with mmuCon := 0x7B } else user
     dataAccess (.ldW .w32 1 x.mode) = some x ∧ RegistersOk s x ∧ AddressOk s x.mode x.kind ∧
       TranslationOk s x.mode x.kind ∧ RangesOk s x.mode x.kind ∧ isUser0 s = true ∧
       ∃ pa ∈ accessAddrs s x.mode x.kind.size, attrOf s pa = .peripheral) ∧
    (let x : DataAccess := ⟨.base 5 0, .load 4 2, false, false⟩
     let s : State := withA [(5, 0xF7E10000)] ready
     dataAccess (.ldW .w32 1 x.mode) = some x ∧ RegistersOk s x ∧ AddressOk s x.mode x.kind ∧
       TranslationOk s x.mode x.kind ∧ RangesOk s x.mode x.kind ∧ isUser0 s = false ∧
       (∃ pa ∈ accessAddrs s x.mode x.kind.size, inCsfrWindow s pa = true) ∧ inCsfrWindow s 0xF7E0FFFF = false) ∧
    (let s : State := { ready with platform := { ready.platform with dsprBytes := 0x100 } }
     ∀ k : Fin 2,
      let i : Instr := if k = 0 then .ldW .w32 1 (.abs 0x340FE) else .stW .w32 1 (.abs 0x340FE)
      let x : DataAccess := ⟨.abs 0x340FE, if k = 0 then .load 4 2 else .store 4 2, false, false⟩
      dataAccess i = some x ∧ RegistersOk s x ∧ AddressOk s x.mode x.kind ∧ TranslationOk s x.mode x.kind ∧
       RangesOk s x.mode x.kind ∧ isUser0 s = false ∧
       (∀ pa ∈ accessAddrs s x.mode x.kind.size, inCsfrWindow s pa = false) ∧
       (∃ pa ∈ accessAddrs s x.mode x.kind.size, busError s pa = true) ∧ x.kind.reads = decide (k = 0)) := by
  refine ⟨fun b => ?_, ⟨rfl, ⟨rfl, nofun, ⟨rfl, nofun⟩⟩, by constructor <;> decide +kernel,
    translationOk_of_direct (by decide +kernel), rangesOk_of_off (by decide +kernel), by decide +kernel,
    ⟨0xF7E10000, by decide +kernel, by decide +kernel⟩, by decide +kernel⟩, fun k => ?_⟩
  · cases b <;> exact ⟨rfl, abs_registersOk _ _, by constructor <;> decide +kernel,
      translationOk_of_direct (by decide +kernel), rangesOk_of_off (by decide +kernel), by decide +kernel,
      0xF0000100, by decide +kernel, by decide +kernel⟩
  · match k with
    | 0 => exact ⟨rfl, ⟨rfl, nofun, ⟨rfl, nofun⟩⟩, by constructor <;> decide +kernel,
        translationOk_of_direct (by decide +kernel), rangesOk_of_off (by decide), by decide,
        forall_of_all (by decide +kernel), ⟨0xD0000100, by decide +kernel, by decide +kernel⟩, rfl⟩
    | 1 => exact ⟨rfl, ⟨rfl, nofun, ⟨rfl, nofun⟩⟩, by constructor <;> decide +kernel,
        translationOk_of_direct (by decide +kernel), rangesOk_of_off (by decide), by decide,
        forall_of_all (by decide +kernel), ⟨0xD0000100, by decide +kernel, by decide +kernel⟩, rfl⟩

/-- Accesses of every kind that are in order, at the last absolute address of a segment and at others. -/
theorem data_accessOk : AccessOk data (.abs 0x37FFF) (.load 1 1) ∧ AccessOk data (.abs 0x34102) (.load 2 2) ∧
    AccessOk data (.abs 0x34102) (.load 4 2) ∧ AccessOk data (.abs 0x34100) .loadD ∧
    AccessOk data (.postInc 2 4) (.load 4 4) ∧ AccessOk data (.postInc 2 8) (.load 8 4) ∧
    AccessOk data (.abs 0x37FFF) (.store 1 1) ∧ AccessOk data (.abs 0x34102) (.store 2 2) ∧
    AccessOk data (.abs 0x34102) (.store 4 2) ∧ AccessOk data (.abs 0x34100) .storeD ∧
    AccessOk data (.preInc 2 4) (.store 4 4) ∧ AccessOk data (.postInc 2 8) (.store 8 4) ∧
    AccessOk data (.base 2 0x1FC) .rmw ∧ AccessOk data (.abs 0x34101) .bit := by
  refine ⟨?_, ?_, ?_, ?_, ?_, ?_, ?_, ?_, ?_, ?_, ?_, ?_, ?_, ?_⟩ <;> apply accessOk_of_plain <;> decide +kernel

theorem test_witness_DataAccessFrame :
    ∀ k : Fin 2, let i : Instr := if k = 0 then .ldDa .w32 2 (.postInc 2 8) else .stDa .w32 2 (.postInc 2 8)
      let x : DataAccess := ⟨.postInc 2 8, if k = 0 then .load 8 4 else .store 8 4, false, false⟩
      dataAccess i = some x ∧ RegistersOk data x ∧ AccessOk data x.mode x.kind ∧ x.kind.writes = decide (k = 1) := by
  intro k
  match k with
  | 0 => exact ⟨rfl, ⟨rfl, nofun, ⟨rfl, by decide +kernel⟩⟩, data_accessOk.2.2.2.2.2.1, rfl⟩
  | 1 => exact ⟨rfl, ⟨rfl, nofun, ⟨rfl, by decide +kernel⟩⟩, data_accessOk.2.2.2.2.2.2.2.2.2.2.2.1, rfl⟩

theorem test_witness_DataLoads :
    (ModeOk data (.abs 0x37FFF) ∧ AccessOk data (.abs 0x37FFF) (.load 1 1)) ∧
    (ModeOk data (.abs 0x34102) ∧ AccessOk data (.abs 0x34102) (.load 2 2) ∧ AccessOk data (.abs 0x34102) (.load 4 2)) ∧
    ((14 : DReg).val % 2 = 0 ∧ ModeOk data (.abs 0x34100) ∧ AccessOk data (.abs 0x34100) .loadD ∧
      AllMemory data (accessAddrs data (.abs 0x34100) 8)) :=
  ⟨⟨⟨rfl, nofun⟩, data_accessOk.1⟩, ⟨⟨rfl, nofun⟩, data_accessOk.2.1, data_accessOk.2.2.1⟩,
   ⟨rfl, ⟨rfl, nofun⟩, data_accessOk.2.2.2.1, allMemory_of_all (by decide +kernel)⟩⟩

/-- The mode's register is loaded; a global register is loaded with PSW.GW. -/
theorem test_witness_AddressLoads :
    (ModeOk data (.postInc 2 4) ∧ (isGlobal 2 = true → pswGw data.psw = true) ∧ AccessOk data (.postInc 2 4) (.load 4 4) ∧
      modeTarget (.postInc 2 4) = some 2) ∧
    (ModeOk data (.postInc 2 8) ∧ (8 : AReg).val % 2 = 0 ∧ ((isGlobal 8 || isGlobal 9) = true → pswGw data.psw = true) ∧
      AccessOk data (.postInc 2 8) (.load 8 4)) :=
  ⟨⟨⟨rfl, by decide⟩, by decide, data_accessOk.2.2.2.2.1, rfl⟩,
   ⟨⟨rfl, by decide⟩, rfl, by decide +kernel, data_accessOk.2.2.2.2.2.1⟩⟩

theorem test_witness_Stores :
    (ModeOk data (.abs 0x37FFF) ∧ AccessOk data (.abs 0x37FFF) (.store 1 1)) ∧
    (ModeOk data (.abs 0x34102) ∧ AccessOk data (.abs 0x34102) (.store 2 2) ∧ AccessOk data (.abs 0x34102) (.store 4 2)) ∧
    ((14 : DReg).val % 2 = 0 ∧ ModeOk data (.abs 0x34100) ∧ AccessOk data (.abs 0x34100) .storeD) ∧
    (ModeOk data (.preInc 2 4) ∧ AccessOk data (.preInc 2 4) (.store 4 4)) ∧
    ((2 : AReg).val % 2 = 0 ∧ ModeOk data (.postInc 2 8) ∧ AccessOk data (.postInc 2 8) (.store 8 4)) := by
  obtain ⟨-, -, -, -, -, -, h1, h2, h3, h4, h5, h6, -⟩ := data_accessOk
  exact ⟨⟨⟨rfl, nofun⟩, h1⟩, ⟨⟨rfl, nofun⟩, h2, h3⟩, ⟨rfl, ⟨rfl, nofun⟩, h4⟩, ⟨⟨rfl, by decide⟩, h5⟩,
    ⟨rfl, ⟨rfl, by decide⟩, h6⟩⟩

theorem test_witness_ReadModifyWrites :
    (ModeOk data (.base 2 0x1FC) ∧ AccessOk data (.base 2 0x1FC) .rmw ∧ (14 : DReg).val % 2 = 0) ∧
    AccessOk data (.abs 0x34101) .bit := by
  obtain ⟨-, -, -, -, -, -, -, -, -, -, -, -, h1, h2⟩ := data_accessOk
  exact ⟨⟨⟨rfl, nofun⟩, h1, rfl⟩, h2⟩

/-- CPU_SRC0 and CPU_SBSRC3, loaded and stored; a request set and cleared from outside. -/
theorem test_witness_ServiceRequestNodes :
    (∀ b : Bool, let k := if b then 7 else 0
      let s : State := withA [(5, if b then 0xF7E0FFB0 else 0xF7E0FFFC)] ready
      ModeOk s (.base 5 0) ∧ getNode s k = some Src.reset ∧ accessAddrs s (.base 5 0) 4 = addrs (nodeAddr s k) 4 ∧
      NodeAlone s k ∧ AccessOk s (.base 5 0) (.load 4 2) ∧ AccessOk s (.base 5 0) (.store 4 2)) ∧
    ∀ (b : Bool) (cpu : Bool), let k := if cpu then 3 else 4
      let s : State := { ready with inputs := [[if b then .setRequest k else .clearRequest k]] }
      getNode s k = some Src.reset ∧ eventsNow s = [if b then .setRequest k else .clearRequest k] := by
  have access {s : State} {kind : AccessKind} (hk : kind = .load 4 2 ∨ kind = .store 4 2)
      (ha : AddressOk s (.base 5 0) kind) (hp : sysProten s.syscon = false)
      (hb : ((modeBytes s (.base 5 0) 4).all fun va => !usesPte s va && !upperDenied s va && !isUser0 s &&
        !inCsfrWindow s va && !busError s va) = true) : AccessOk s (.base 5 0) kind := by
    have hs : kind.size = 4 := by rcases hk with rfl | rfl <;> rfl
    have byte (va : Word) (h : va ∈ modeBytes s (.base 5 0) kind.size) := List.all_eq_true.mp hb va (hs ▸ h)
    have phys (va : Word) (h : va ∈ modeBytes s (.base 5 0) kind.size) : (physOf s va).getD 0#32 = va := by
      have := byte va h
      simp_all [physOf]
    refine ⟨ha, translationOk_of_direct (List.all_eq_true.mpr fun va h => ?_), rangesOk_of_off hp, fun va h hu => ?_,
      fun va h => ?_, fun _ va h => ?_⟩
    · have := byte va h; simp_all
    · have := byte va h; simp_all
    · rw [phys va h]; have := byte va h; simp_all
    · rw [phys va h]; have := byte va h; simp_all
  have alone {s : State} {k : Nat} (h : ((List.range (nodeCount s)).all fun j => (addrs (nodeAddr s k) 4).all fun pa =>
      j == k || decide (4 ≤ (pa - nodeAddr s j).toNat)) = true) (hb : ((addrs (nodeAddr s k) 4).all fun pa =>
      busError s pa == false) = true) : NodeAlone s k := by
    refine ⟨fun j hj hn pa hp => ?_, forall_of_all hb⟩
    obtain ⟨n, hn⟩ := Option.isSome_iff_exists.mp hn
    have := List.all_eq_true.mp (List.all_eq_true.mp h j (List.mem_range.mpr (getNode_lt hn))) pa hp
    simpa [hj] using this
  refine ⟨fun b => ?_, fun b cpu => by cases b <;> cases cpu <;> decide +kernel⟩
  cases b <;> exact ⟨⟨rfl, nofun⟩, by decide +kernel, by decide +kernel, alone (by decide +kernel) (by decide +kernel),
    access (.inl rfl) (by constructor <;> decide +kernel) (by decide +kernel) (by decide +kernel),
    access (.inr rfl) (by constructor <;> decide +kernel) (by decide +kernel) (by decide +kernel)⟩

/-- The last but one value of a counter, and the counter switched off. -/
theorem test_witness_CallsAndJumps :
    saveFails ready = false ∧ ((cdcEnabled 0xBBE && cdcAtMax (pswCdc 0xBBE)) = false ∧ cdcEnabled 0xBBE = true) ∧
    ((cdcEnabled 0xBFF && cdcAtMax (pswCdc 0xBFF)) = false ∧ cdcEnabled 0xBFF = false) := by decide +kernel

/-- `ready` with PCXI at its first context area. -/
def calledWith (p w : Word) : State := { ready with pcxi := p, psw := w }

theorem csaReadable_of {s : State} {ea : Word} (hf : csaForbidden s ea = false) (hu : isUser0 s = false)
    (hb : ((addrs ea 64).all fun pa => !inCsfrWindow s pa && !busError s pa) = true) : CsaReadable s ea := by
  have byte (pa : Word) (h : pa ∈ addrs ea 64) : inCsfrWindow s pa = false ∧ busError s pa = false := by
    simpa using List.all_eq_true.mp hb pa h
  refine ⟨hf, fun h => ?_, fun pa h => (byte pa h).1, fun pa h => (byte pa h).2⟩
  rw [hu] at h
  cases h

/-- RET with a count of 1, RFE with a count of 0, both with the counter switched off. -/
theorem test_witness_Returns :
    (ctxPtr 0x4D0040 ≠ 0 ∧ pcxiUl 0x4D0040 = true ∧ csaEa (ctxPtr 0x4D0040) = 0xD0001000) ∧
    (CsaReadable (calledWith 0x4D0040 0xB81) 0xD0001000 ∧ (cdcEnabled 0xB81 && cdcIsZero (pswCdc 0xB81)) = false) ∧
    (CsaReadable (calledWith 0x4D0040 0xB80) 0xD0001000 ∧ (cdcEnabled 0xB80 && !cdcIsZero (pswCdc 0xB80)) = false) ∧
    (CsaReadable (calledWith 0x4D0040 0xBFF) 0xD0001000 ∧ (cdcEnabled 0xBFF && cdcIsZero (pswCdc 0xBFF)) = false ∧
      (cdcEnabled 0xBFF && !cdcIsZero (pswCdc 0xBFF)) = false) :=
  ⟨by decide +kernel, ⟨csaReadable_of (by decide +kernel) (by decide +kernel) (by decide +kernel), by decide⟩,
   ⟨csaReadable_of (by decide +kernel) (by decide +kernel) (by decide +kernel), by decide⟩,
   ⟨csaReadable_of (by decide +kernel) (by decide +kernel) (by decide +kernel), by decide⟩⟩

theorem test_witness_LowerContexts :
    saveFails ready = false ∧ isSupervisor user = false ∧ isSupervisor ready = true ∧
    (ctxPtr 0x0D0040 ≠ 0 ∧ pcxiUl 0x0D0040 = false ∧ csaEa (ctxPtr 0x0D0040) = 0xD0001000 ∧
      CsaReadable (calledWith 0x0D0040 0xB80) 0xD0001000) :=
  ⟨by decide +kernel, by decide, by decide, by decide, by decide, by decide, csaReadable_of (by decide +kernel) (by decide +kernel) (by decide +kernel)⟩

theorem test_witness_ContextLoadsAndStores (loads : Bool) :
    CtxOk data (.abs 0x37FC0) loads ∧ CtxOk (withA [(5, 0xD0000104)] data) (.base 5 0x3C) loads := by
  constructor
  · exact ⟨nofun, by decide +kernel, by decide +kernel, by decide +kernel, by decide +kernel,
      (absurd · (by decide +kernel)), forall_of_all (by decide +kernel), fun _ => forall_of_all (by decide +kernel)⟩
  · refine ⟨fun b h => ?_, by decide +kernel, by decide +kernel, by decide +kernel, by decide +kernel,
      (absurd · (by decide +kernel)), forall_of_all (by decide +kernel), fun _ => forall_of_all (by decide +kernel)⟩
    cases h
    decide +kernel

theorem test_witness_ContextTraps :
    (ctxPtr State.reset.fcx = 0 ∧ saveFails State.reset = true ∧ isSupervisor State.reset = true ∧
      ctxPtr State.reset.pcxi = 0) ∧
    (ctxPtr ready.fcx ≠ 0 ∧ (cdcEnabled 0xBBF && cdcAtMax (pswCdc 0xBBF)) = true) ∧
    (let s : State := { ready with platform := { ready.platform with csaRestriction := true } }
     ctxPtr s.fcx ≠ 0 ∧ (cdcEnabled s.psw && cdcAtMax (pswCdc s.psw)) = false ∧ saveFails s = true) ∧
    (ctxPtr 0x4D0040 ≠ 0 ∧ pcxiUl 0x4D0040 = true ∧ ctxPtr 0x0D0040 ≠ 0 ∧ pcxiUl 0x0D0040 = false) ∧
    ((cdcEnabled 0xB80 && cdcIsZero (pswCdc 0xB80)) = true ∧ (cdcEnabled 0xB81 && cdcIsZero (pswCdc 0xB81)) = false ∧
      (cdcEnabled 0xB81 && !cdcIsZero (pswCdc 0xB81)) = true ∧ (cdcEnabled 0xB80 && !cdcIsZero (pswCdc 0xB80)) = false) := by
  decide +kernel

/-- `ready` with A[5] set, in User-0 mode or not, its scratchpad one byte short of two areas. -/
def reaching (a psw : Word) : State := withA [(5, a)] { ready with
  psw := psw, pcxi := 0x4D0041, platform := { ready.platform with dsprBytes := 0x107F } }

/-- MEM at the last bytes of a segment, ALN one half-word off, MPN; MPP, the window, a bus error on the last byte of the area;
the same for restores, the free list's second area being the one in bus error. -/
theorem test_witness_ContextAccessTraps :
    (let m : CtxMode := .base 5 0
     (let s := reaching 0xDFFFFFC2 0xB80
      segment (modeEa s (ctxMode m) + 63) ≠ segment (modeEa s (ctxMode m))) ∧
     (let s := reaching 0xD0001042 0xB80
      modeBase s (ctxMode m) = some 0xD0001042 ∧ segment (modeEa s (ctxMode m)) = segment 0xD0001042 ∧
      segment (modeEa s (ctxMode m) + 63) = segment (modeEa s (ctxMode m)) ∧ csaForbidden s (modeEa s (ctxMode m)) = false ∧
      (modeEa s (ctxMode m)).toNat % 64 ≠ 0) ∧
     modeEa (reaching 0 0xB80) (ctxMode m) = 0 ∧
     (let s := reaching 0xF0001040 0x380
      (modeEa s (ctxMode m)).toNat % 64 = 0 ∧ isUser0 s = true ∧
      ((addrs (modeEa s (ctxMode m)) 64).any fun pa => attrOf s pa = .peripheral) = true) ∧
     (let s := reaching 0xF7E10000 0xB80
      isUser0 s = false ∧ ((addrs (modeEa s (ctxMode m)) 64).any (inCsfrWindow s)) = true) ∧
     (let s := reaching 0xD0001040 0xB80
      isUser0 s = false ∧ ((addrs (modeEa s (ctxMode m)) 64).any (inCsfrWindow s)) = false ∧
      busError s 0xD000107F = true ∧ busError s 0xD000107E = false)) ∧
    (ctxPtr (reaching 0 0xB80).pcxi ≠ 0 ∧ pcxiUl (reaching 0 0xB80).pcxi = true ∧ pcxiUl 0x0D0041 = false ∧
     (cdcEnabled 0xB81 && cdcIsZero (pswCdc 0xB81)) = false ∧ (cdcEnabled 0xB80 && !cdcIsZero (pswCdc 0xB80)) = false ∧
     csaEa (ctxPtr (reaching 0 0xB80).pcxi) = 0xD0001040 ∧ csaForbidden (reaching 0 0xB80) 0xD0001040 = false ∧
     csaForbidden { ready with platform := { ready.platform with csaRestriction := true } } 0xD0001040 = true ∧
     csaEa (ctxPtr 0x4F0041) = 0xF0001040 ∧ csaEa (ctxPtr 0x4F0001) = 0xF0000040 ∧
     attrOf (reaching 0 0x380) 0xF0001040 = .peripheral ∧
     inCsfrWindow { ready with platform := { ready.platform with csfrBase := 0xF0000000 } } 0xF0000040 = true) := by
  decide +kernel

theorem test_witness_SavedContextLayout :
    Memory.wf ready.mem = true ∧ AllMemory ready (addrs (csaEa (ctxPtr ready.fcx)) 64) := ⟨ready_inv.mem, ready_memory⟩

theorem test_witness_ReturnResumesTheCaller :
    ready.Inv ∧ saveFails ready = false ∧ AllMemory ready (addrs (csaEa (ctxPtr ready.fcx)) 64) ∧
    (pswCde ready.psw = true ∧ cdcAtMax (pswCdc ready.psw) = false) ∧ pswCdc 0xBFF = 0x7F ∧
    (pswCde 0xB01 = false ∧ cdcIsZero (pswCdc 0xB01) = false) :=
  ⟨ready_inv, by decide +kernel, ready_memory, by decide, by decide, by decide⟩

theorem test_witness_SystemCallReturns :
    ready.Inv ∧ saveFails ready = false ∧ AllMemory ready (addrs (csaEa (ctxPtr ready.fcx)) 64) :=
  ⟨ready_inv, by decide +kernel, ready_memory⟩

theorem test_witness_TrapEntry :
    saveFails ready = false ∧ saveFails State.reset = true ∧ pswIs 0x980 = false := by decide +kernel

/-- `ready` with one active node that has won the arbitration. -/
def requested : State :=
  { ready with icr := 0x00FF01FE, sbSrc := ready.sbSrc.set 3 ⟨true, true, 0, 0xFF⟩ }

/-- A single winner, two of one number, and no free context area. -/
theorem test_witness_InterruptEntry :
    (getNode requested 7 = some ⟨true, true, 0, 0xFF⟩ ∧ arbitrate requested ≠ 0 ∧ saveFails requested = false ∧
      AllMemory requested (addrs (csaEa (ctxPtr requested.fcx)) 64) ∧ winners requested (icrPipn requested.icr) = [7]) ∧
    (let s : State := { requested with cpuSrc := requested.cpuSrc.set 0 ⟨true, true, 0, 0xFF⟩ }
     winners s (icrPipn s.icr) = [0, 7]) ∧ saveFails { requested with fcx := 0 } = true :=
  ⟨⟨by decide +kernel, by decide +kernel, by decide +kernel, allMemory_of_all (by decide +kernel), by decide +kernel⟩,
   by decide +kernel, by decide +kernel⟩

theorem test_witness_CoreRegisterReads :
    (∀ off, EventOff ready (crEvent ready off)) ∧ 1 < ready.platform.nTriggers ∧ (7 : Fin 8).val < { ready.platform with nTriggers := 8 }.nTriggers ∧ mmuNone ready.mmuCon = false ∧
    (3 < ready.platform.nProtSets ∧ 3 < ready.platform.nDataRanges ∧ 3 < ready.platform.nCodeRanges) ∧
    csfrOf ready.platform 0xFE0C = none ∧
    (csfrOf ready.platform 0x8004 = some .mmuAsi ∧ csfrFree { ready with mmuCon := 0x8000 } .mmuAsi = true) :=
  ⟨fun _ => .inl (by decide), by decide, by decide, by decide, by decide, by decide, by decide⟩

/-- The switch of translation from a page that is not identity mapped. -/
def switching : State :=
  { mmu with mmuCon := 0x7B, pc := 0x12345000 }

theorem test_witness_CoreRegisterWrites :
    (∀ off, EventOff ready (crEvent ready off)) ∧ isSupervisor user = false ∧
    (isSupervisor ready = true ∧ mmuSwitchBad ready 0xFE3C (ready.dr 1) = false ∧
      csfrOf ready.platform 0xFE3C = some .lcx ∧ csfrOf ready.platform 0xFE0C = none) ∧
    (EventOff switching (crEvent switching 0x8000) ∧ isSupervisor switching = true ∧
      mmuSwitchBad switching 0x8000 (switching.dr 1) = true) :=
  ⟨fun _ => .inl (by decide), by decide, by decide +kernel, ⟨.inl (by decide), by decide +kernel, by decide +kernel⟩⟩

theorem test_witness_CoreRegistersReadBack :
    ready.Inv ∧ (csfrOf ready.platform 0xFE20 = some .biv ∧ csfrFree ready .biv = false) ∧
    (csfrOf ready.platform 0xFD00 = some .dbgsr ∧ csfrFree ready .dbgsr = false) := ⟨ready_inv, by decide, by decide⟩

theorem test_witness_InterruptEnableAndSequencing :
    user.psw.extractLsb' 10 2 = 0 ∧ (0x780#32).extractLsb' 10 2 ≠ 0 ∧ EventOff ready (swEvent ready) ∧
    EventOff debugged (swEvent debugged) :=
  ⟨by decide, by decide, .inl (by decide), .inr (by decide)⟩

theorem test_witness_DebugInstruction :
    dbgDe debugged.dbgsr = true ∧ evtEvta 1 = 1 ∧ (evtEvta 2 = 2 ∧ evtBbm 2 = false) ∧ (evtEvta 0xA = 2 ∧ evtBbm 0xA = true) ∧
    ((evtEvta 4).toNat = 4 + 0 ∧ getNode debugged 4 = some Src.reset) ∧
    ((evtEvta 7).toNat = 4 + 3 ∧ getNode debugged 7 = some Src.reset) := by decide +kernel

/-- `debugged` with an action in every event register. -/
def watched (evta : Word) : State := { debugged with crevt := evta, swevt := evta, exevt := evta }

theorem event_ok {e : DebugEvent} {s : State} (h : (debugEvent e s).toOption.isSome = true) : ∃ t, debugEvent e s = .ok t := by
  obtain ⟨t, h⟩ := Option.isSome_iff_exists.mp h
  exact ⟨t, ok_of_toOption h⟩

/-- Each action, before and after; a debug area that is not memory; a User mode; Break-In with nothing else pending. -/
theorem test_witness_OtherDebugEvents :
    (∀ a ∈ [1, 2, 3, 4, 7, 9, 0xA, 0xB, 0xF], let s := watched a
      dbgDe s.dbgsr = true ∧ evtEnabled s s.crevt = true ∧ evtEnabled s s.exevt = true ∧
      (∃ t, debugEvent { reg := s.crevt, code := 1 } s = .ok t) ∧
      (csfrOf s.platform 0xFE2C = some .icr ∧ Csfr.icr.isDebug = false ∧ csfrOf s.platform 0xFE0C = none)) ∧
    (let s := { watched 3 with dcx := 0xF0000000 }
     evtEnabled s s.crevt = true ∧ evtEvta s.crevt = 3 ∧ s.dcx ∈ addrs s.dcx 16 ∧ plainMemory s s.dcx = false) ∧
    (isSupervisor { watched 1 with psw := 0x780 } = false ∧ isSupervisor (watched 1) = true ∧
      mmuSwitchBad (watched 1) 0xFE2C 0 = false) ∧
    (∀ a ∈ [1, 2, 3], let s : State := { watched a with inputs := [[.breakIn]] }
      eventsNow s = [.breakIn] ∧ dbgHalted s.dbgsr = false ∧
      (∃ t, debugEvent { reg := s.exevt, code := 0 } s.atBoundary = .ok t) ∧
      s.nmiPending = false ∧ s.daePending = false ∧ s.fcdPending = false ∧ interruptReady s.atBoundary = false) := by
  refine ⟨fun a h => ?_, by decide +kernel, by decide +kernel, fun a h => ?_⟩ <;>
    simp only [List.mem_cons, List.not_mem_nil, or_false] at h
  · rcases h with rfl | rfl | rfl | rfl | rfl | rfl | rfl | rfl | rfl <;>
      exact ⟨by decide +kernel, by decide +kernel, by decide +kernel, event_ok (by decide +kernel), by decide +kernel⟩
  · rcases h with rfl | rfl | rfl <;>
      exact ⟨rfl, by decide +kernel, event_ok (by decide +kernel), by decide +kernel, by decide +kernel, by decide +kernel,
        by decide +kernel⟩

/-- `debugged` with trigger register 1 watching code range 1 (from the pc, its last byte) and data range 1. -/
def trapped (w : Word) : State := { debugged with
  trEvt := debugged.trEvt.set 1 w, prot := debugged.prot.set 0 { ProtSet.reset with
    cprL := ProtSet.reset.cprL.set 1 0x80000000, cprU := ProtSet.reset.cprU.set 1 0x80000002, cpm := 0x2000,
    dprL := ProtSet.reset.dprL.set 1 0xD0000100, dprU := ProtSet.reset.dprU.set 1 0xD0000101, dpm := 0x1000 } }

/-- A trigger before the instruction that goes on, that halts, and one after it; the ASI compared, with an MMU and without; a
data trigger at the last byte of its range; an instruction that traps. -/
theorem test_witness_TriggerEvents :
    (∀ w ∈ [0x9, 0xA, 0x1], let s := trapped w
      s.Quiet ∧ fetch s.atInstruction = .ok [0, 0] ∧ ownEventDue s.atInstruction (some (.nop .w16)) true = false ∧
      ownEventDue s.atInstruction (some (.nop .w16)) false = false ∧
      trigBefore s.atInstruction 1 s.atInstruction.pc = w.getLsbD 3 ∧
      trigAfter s.atInstruction 1 s.atInstruction.pc [] = !w.getLsbD 3 ∧
      trigBefore s.atInstruction 0 s.atInstruction.pc = false ∧ trigAfter s.atInstruction 0 s.atInstruction.pc [] = false ∧
      ∃ t, debugEvent { reg := s.trEvt[(1 : Fin 8)], code := 16 + BitVec.ofNat 5 (1 : Fin 8).val } s.atInstruction = .ok t) ∧
    (trigAfter (trapped 0x101) 1 0x80000001 [{ ea := 0xD0000100, read := true, write := false }] = true ∧
      trigAfter (trapped 0x101) 1 0x80000001 [{ ea := 0xD0000101, read := true, write := false }] = false ∧
      trigAfter { trapped 0x58001 with mmuAsi := 5 } 1 0x80000000 [] = true ∧
      trigAfter (trapped 0x58001) 1 0x80000000 [] = false ∧
      asiFree { trapped 0x58001 with mmuCon := 0x8000 } = true) ∧
    (∃ u, exec (.nop .w16) (trapped 0x1).atInstruction = .next u ∧ u.completed = true) ∧
    ∃ u, exec (.ldW .w32 1 (.abs 0)) (trapped 0x1).atInstruction = .next u ∧ u.completed = false := by
  refine ⟨fun w h => ?_, by decide +kernel, ⟨_, rfl, by decide +kernel⟩, ?_⟩
  · simp only [List.mem_cons, List.not_mem_nil, or_false] at h
    rcases h with rfl | rfl | rfl <;>
      exact ⟨by constructor <;> decide +kernel, ok_of_toOption (by decide +kernel), by decide +kernel, by decide +kernel,
        by decide +kernel, by decide +kernel, by decide +kernel, by decide +kernel, event_ok (by decide +kernel)⟩
  · have h : reaches (exec (.ldW .w32 1 (.abs 0)) (trapped 0x1).atInstruction) (fun t => !t.completed) = true := by
      decide +kernel
    revert h
    generalize exec (.ldW .w32 1 (.abs 0)) (trapped 0x1).atInstruction = o
    intro h
    cases o with
    | next t => exact ⟨t, rfl, by simpa [reaches] using h⟩
    | fault r => cases h
    | refused r => cases h

theorem test_witness_BreakpointTrapAndReturn (b : Bool) :
    let s : State := { debugged with swevt := if b then 0xB else 3 }
    s.Inv ∧ dbgDe s.dbgsr = true ∧ evtEvta s.swevt = 3 ∧ evtBbm s.swevt = b ∧ AllMemory s (addrs s.dcx 16) := by
  cases b <;> exact ⟨by constructor <;> decide +kernel, by decide, by decide, by decide, allMemory_of_all (by decide +kernel)⟩

theorem test_witness_MonitorReturn :
    isSupervisor user = false ∧ (isSupervisor ready = true ∧ dbgDe ready.dbgsr = false) ∧
    (let s := { debugged with platform := { debugged.platform with busErrors := [⟨0xDE80000F, 1⟩] } }
     isSupervisor s = true ∧ dbgDe s.dbgsr = true ∧ ∃ pa ∈ addrs s.dcx 16, busError s pa = true) ∧
    (isSupervisor debugged = true ∧ dbgDe debugged.dbgsr = true ∧
      ∀ pa ∈ addrs debugged.dcx 16, busError debugged pa = false) :=
  ⟨by decide, by decide, ⟨by decide, by decide, 0xDE80000F, by decide +kernel, by decide +kernel⟩,
   ⟨by decide, by decide, forall_of_all (by decide +kernel)⟩⟩

theorem test_witness_MmuInstructionTraps :
    (15 : DReg).val % 2 = 1 ∧ (14 : DReg).val % 2 = 0 ∧ mmuNone 0x8000 = true ∧
    (mmuNone user.mmuCon = false ∧ isSupervisor user = false) := by decide

theorem mmu_inv : mmu.Inv := by constructor <;> decide +kernel

/-- The second mapping of spec/95 2.13, an address at each end of its page, one outside it; the mapping before it still there,
in TLBs of the smallest size. -/
theorem test_witness_TlbMapInstalls :
    mmu.Inv ∧ (2 : DReg).val % 2 = 0 ∧ mmuNone mmu.mmuCon = false ∧ isSupervisor mmu = true ∧
    undefinedMap mmu 0x00010000 0xB3280000 = false ∧ (0xB3280000#32).extractLsb' 24 2 = 3#2 ∧
    ((0x00010000#32).toNat / 2 ^ 16 = 1 ∧ (0x0001FFFF#32).toNat / 2 ^ 16 = 1) ∧
    ((0x00020000#32).toNat / 2 ^ 16 ≠ 1 ∧ Tte.invalid.v = false ∧ { page with asi := 6 } ∉ mmu.tlbA ++ mmu.tlbB) ∧
    (let s : State := { mmu with recentMaps := [(false, 0)] }
     3 ≤ s.platform.tlbTsz ∧ s.recentMaps.head? = some (false, 0) ∧ slotTte s (false, 0) = some page ∧ page.v = true) :=
  ⟨mmu_inv, by decide, by decide, by decide, by decide +kernel, by decide, by decide, by decide +kernel, by decide +kernel⟩

/-- Undefined: the 64 Kbyte page that holds the TTE's 4 Kbyte page, under its ASI, and under another one only where it is
global; a page size of neither TLB; a peripheral frame; an upper address; V = 0. Another ASI's TTE stands in a slot of its
own. -/
theorem test_witness_TlbMapInstalls_undefined :
    let other := { mmu with mmuAsi := 6 }
    (undefinedMap mmu 0x1234FFFF 0xB3280000 = true ∧ undefinedMap mmu 0x12350000 0xB3280000 = false ∧
      page.asi ≠ other.mmuAsi.extractLsb' 0 5 ∧ undefinedMap other 0x1234FFFF 0xB3280000 = false ∧
      undefinedMap other 0x1234FFFF 0xBB280000 = true ∧ slotTte other (false, 0) = some page) ∧
    ((0#2 ≠ mmuSza mmu.mmuCon ∧ 0#2 ≠ mmuSzb mmu.mmuCon) ∧ attrOf mmu 0xF0000000 = .peripheral ∧
      (0x80000000#32).getLsbD 31 = true ∧ (0x32280000#32).getLsbD 31 = false) := by decide +kernel

theorem test_witness_TlbInvalidation :
    mmuNone mmu.mmuCon = false ∧ isSupervisor mmu = true ∧
    (lookupTte { mmu with mmuCon := 0x7B } 0x12345FFF = some page ∧ page.hits (asiOf mmu) 0x12346000 = false) ∧
    (page.hits (asiOf mmu) 0x12345000 = true ∧ { page with asi := 6 }.hits (asiOf mmu) 0x12345000 = false ∧
      { page with asi := 6, g := true }.hits (asiOf mmu) 0x12345FFF = true) := by
  decide +kernel

theorem test_witness_TlbProbes :
    mmuNone mmu.mmuCon = false ∧ isSupervisor mmu = true ∧ (mmu.tlbA[0]? = some page ∧ page.v = true) ∧
    (mmu.tlbB[131 - 128]? = some Tte.invalid ∧ Tte.invalid.v = false ∧ mmu.tlbA[127]? = none) ∧
    (lookupTte mmu 0x12345000 = some page ∧ lookupTte mmu 0x12344FFF = none) ∧ mmu.Inv :=
  ⟨by decide, by decide, by decide, by decide, by decide +kernel, mmu_inv⟩

theorem test_witness_FloatingPointCompletes :
    (fpComputed ready (.addF .w32 1 2 3)).isSome = true ∧ ready.platform.hasFpu = true ∧
    { ready.platform with hasFpu := false }.hasFpu = false := by decide +kernel

theorem test_witness_ExceptionFlagsAreConsistent :
    (∃ r, fpComputed ready (.divF .w32 1 2 3) = some (1, r) ∧ r.flags.fi = true) ∧ ready.platform.hasFpu = true := by
  refine ⟨⟨_, rfl, ?_⟩, rfl⟩
  decide +kernel

/-- A quiet and a signalling NaN, each alone. -/
theorem test_witness_NansGiveTheQuietNan :
    [0x7FC00000, 0x3F800000].any fpIsNan = true ∧ [0x3F800000, 0x7F800001].any fpIsNan = true ∧
    [0x3F800000, 0x7F800001].any fpIsSnan = true := by decide

/-- Both zeros; a chain from minus to plus infinity through a denormal; equal zeros of three kinds of sign; a NaN. -/
theorem test_witness_CompareOrdersTheValues :
    (fpIsZero 0 = true ∧ fpIsZero 0x80000000 = true) ∧
    ((fpCmp 0xFF800000 0x80000001).bits.getLsbD 0 = true ∧ (fpCmp 0x80000001 0x7F800000).bits.getLsbD 0 = true) ∧
    ((fpCmp 0 0x80000000).bits.getLsbD 1 = true ∧ (fpCmp 0x80000000 0).bits.getLsbD 1 = true) ∧
    fpIsNan 0x7F800001 = true ∧ fpIsNan 0x7F800000 = false := by
  decide +kernel

/-- The smallest and the largest normal number; a third, in every mode and with both signs; a value at the threshold of
overflow and one below 2^-126. -/
theorem test_witness_RoundingIsCorrect :
    (1 ≤ (fpExp 0x00800000).toNat ∧ (fpExp 0x00800000).toNat ≤ 254) ∧
    (1 ≤ (fpExp 0x7F7FFFFF).toNat ∧ (fpExp 0x7F7FFFFF).toNat ≤ 254) ∧
    (∀ (rm : BitVec 2) (neg : Bool),
      (fpRound rm neg (2 ^ 149) 3).flags.fv = false ∧ (fpRound rm neg (2 ^ 149) 3).flags.fu = false ∧
      (fpRound rm neg (2 ^ 277) 1).flags.fv = true ∧ (fpRound rm neg (2 ^ 23 - 1) 1).flags.fu = true) ∧
    (fpRound 0 false ((2 ^ 25 - 1) * 2 ^ 252) 1).flags.fv = true ∧
    (fpRound 0 false ((2 ^ 25 - 1) * 2 ^ 252 - 1) 1).flags.fv = false ∧ (fpRound 0 false (2 ^ 23) 1).flags.fu = false := by
  decide +kernel

/-- Finite operands, zeros of both kinds, infinities: none of them a NaN. -/
theorem test_witness_ArithmeticResults :
    ([0x3F800000, 0xFF7FFFFF, 0, 0x80000001, 0x7F800000, 0xFF800000].all fun w =>
      !fpIsNan w && (fpIsInf w || fpExp w != 255)) = true := by decide +kernel

/-- A NaN, both infinities, the largest finite number, beyond every range, and one half. -/
theorem test_witness_ConversionResults :
    fpIsNan 0x7FC00000 = true ∧ fpIsInf 0x7F800000 = true ∧ fpIsInf 0xFF800000 = true ∧ fpExp 0xFF7FFFFF ≠ 255 ∧
    fpExp 0x3F000000 ≠ 255 ∧ (0x1FF#9).toInt = -1 := by decide +kernel

theorem test_witness_UserModeCannotChangeTheSystem :
    isSupervisor user = false ∧ (∃ t, exec (.mtcr .w32 0xFE14 1) user = .next t) ∧
    ∃ t, exec (.ldW .w32 1 (.abs 0x34100)) user = .next t :=
  ⟨by decide, next_of_reaches (by decide +kernel), next_of_reaches (by decide +kernel)⟩

/-- The fault of an outcome. -/
def faultOf (o : Host.Outcome State Fault Refusal) : Option Fault :=
  match o with
  | .next _ => none
  | .fault f => some f
  | .refused _ => none
/-- The refusal of an outcome. -/
def refusalOf (o : Host.Outcome State Fault Refusal) : Option Refusal :=
  match o with
  | .next _ => none
  | .fault _ => none
  | .refused r => some r

theorem fault_of {o : Host.Outcome State Fault Refusal} {f : Fault} (h : faultOf o = some f) : o = .fault f := by
  cases o <;> cases h; rfl

theorem refused_of {o : Host.Outcome State Fault Refusal} {r : Refusal} (h : refusalOf o = some r) : o = .refused r := by
  cases o <;> cases h; rfl

/-- The fault of a fetch. -/
def fetchFault (x : Except Stop (List Byte)) : Option Fault :=
  match x with
  | .error (.fault f) => some f
  | _ => none

theorem stop_of {x : Except Stop (List Byte)} {f : Fault} (h : fetchFault x = some f) : x = .error (.fault f) := by
  unfold fetchFault at h
  split at h <;> cases h
  rfl

/-- Every stop, of an instruction, of a fetch, and of a step by Break-In, by a trigger before and after, by its instruction. -/
theorem test_witness_StopsHaveTheirCause :
    exec (.ldW .w32 1 (.abs 0x34100)) { guarded with
      psw := 0x3B80, platform := { guarded.platform with nProtSets := 2 } } = .fault .missingProtectionSet ∧
    exec (.ldW .w32 1 (.base 5 0)) (withA [(5, 0x12345000)] { mmu with
      mmuCon := 0x7B, tlbA := mmu.tlbA.set 0 { page with ppn := 0x3C0000 } }) = .fault .peripheralPage ∧
    exec (.mtcr .w32 0x8000 1) switching = .fault .mmuSwitchUndefined ∧
    exec (.debug .w16) { debugged with swevt := 0xB, dcx := 0xF0000000 } = .fault .debugAreaUndefined ∧
    exec (.stW .w32 1 (.base 5 0)) (withA [(5, 0xF7E1FE04)] ready) = .refused .csfrAccess ∧
    exec (.stlcx .w32 (.base 5 0)) (withA [(5, 0xF7E1FE00)] ready) = .refused .csfrAccess ∧
    exec (.rslcx .w32) { ready with pcxi := 0xF0001, platform := { ready.platform with csfrBase := 0xF0000000 } } =
      .refused .csfrAccess ∧
    fetch { guarded with psw := 0x3B80, platform := { guarded.platform with nProtSets := 2 } } =
      .error (.fault .missingProtectionSet) ∧
    fetch (paged 0xB80 0x12345000 { codePage with ppn := 0x3C0000 }) = .error (.fault .peripheralPage) ∧
    step { watched 3 with dcx := 0xF0000000, inputs := [[.breakIn]] } = .fault .debugAreaUndefined ∧
    step { trapped 0xB with dcx := 0xF0000000 } = .fault .debugAreaUndefined ∧
    step { trapped 3 with dcx := 0xF0000000 } = .fault .debugAreaUndefined ∧
    step ((withA [(5, 0xF7E1FE04)] ready).withFetchWord 32 0x09005109) = .refused .csfrAccess :=
  ⟨fault_of (by decide +kernel), fault_of (by decide +kernel), fault_of (by decide +kernel), fault_of (by decide +kernel),
   refused_of (by decide +kernel), refused_of (by decide +kernel), refused_of (by decide +kernel),
   stop_of (by decide +kernel), stop_of (by decide +kernel), fault_of (by decide +kernel), fault_of (by decide +kernel),
   fault_of (by decide +kernel), refused_of (by decide +kernel)⟩

end Sys2Proof.Tests
end

section
/-!
PROOFS. What keeps a state well kept (`State.Inv`): the reserved bits of a word over the bit-field operations, then one rule
per operation of the state, then every instruction, every event of the environment and the boundary itself.
-/
namespace Sys2Proof.Machine

/-! ### Reserved bits of a word -/

/-- The bits `m` of a word are clear: bit by bit. -/
theorem bits_clear_iff {w m : Word} : w &&& m = 0 ↔ ∀ i < 32, m.getLsbD i = true → w.getLsbD i = false := by
  constructor
  · intro h i _ hm
    have := congrArg (·.getLsbD i) h
    simpa [hm] using this
  · intro h
    apply BitVec.eq_of_getLsbD_eq
    intro i hi
    have := h i hi
    cases hm : m.getLsbD i <;> simp_all

/-- A field written beside the bits `m` leaves them clear. -/
theorem setField_and_eq_zero {n : Nat} {w m : Word} {lo : Nat} {v : BitVec n} (hw : w &&& m = 0)
    (hm : m.extractLsb' lo n = 0) : setField w lo v &&& m = 0 := by
  rw [bits_clear_iff] at hw ⊢
  intro i hi hmi
  rw [getLsbD_setField]
  split
  next hin =>
    have := congrArg (·.getLsbD (i - lo)) hm
    simp [show i - lo < n by omega, show lo + (i - lo) = i by omega, hmi] at this
  next => exact hw i hi hmi

/-- A bit set beside the bits `m` leaves them clear. -/
theorem setBit_and_eq_zero {w m : Word} {k : Nat} {b : Bool} (hw : w &&& m = 0) (hm : m.extractLsb' k 1 = 0) :
    setBit w k b &&& m = 0 := setField_and_eq_zero hw hm

/-- A word cut to bits beside `m` has the bits `m` clear. -/
theorem cut_and_eq_zero {v k m : Word} (h : k &&& m = 0) : v &&& k &&& m = 0 := by
  rw [BitVec.and_assoc, h]; exact BitVec.and_zero

/-- A masked write beside the bits `m` leaves them clear. -/
theorem maskedWrite_and_eq_zero {w k v m : Word} (hw : w &&& m = 0) (hk : k &&& m = 0) :
    maskedWrite w k v &&& m = 0 := by
  rw [bits_clear_iff] at hw hk ⊢
  intro i hi hmi
  simp [maskedWrite, hw i hi hmi, hk i hi hmi]

/-- A value of `n` bits leaves bits above them clear. -/
theorem setWidth_and_eq_zero {n : Nat} (v : BitVec n) {m : Word} (hm : m.extractLsb' 0 n = 0) :
    v.setWidth 32 &&& m = 0 := by
  rw [bits_clear_iff]
  intro i hi hmi
  by_cases hin : i < n
  · have := congrArg (·.getLsbD i) hm
    simp [hin, hmi] at this
  · simp [BitVec.getLsbD_of_ge v i (by omega)]

/-- An even word is one whose lowest bit is clear. -/
theorem and_one_eq_zero_iff {w : Word} : w &&& 1 = 0 ↔ w.getLsbD 0 = false := by
  rw [bits_clear_iff]
  constructor
  · exact fun h => h 0 (by decide) (by decide)
  · intro h i hi h1
    have : i = 0 := by revert h1; revert i; decide
    rwa [this]

theorem evenAddr_and_one (w : Word) : evenAddr w &&& 1 = 0 := cut_and_eq_zero (by decide)

/-- An even address stays even over an even distance. -/
theorem add_and_one {x y : Word} (hx : x &&& 1 = 0) (hy : y &&& 1 = 0) : (x + y) &&& 1 = 0 := by
  rw [and_one_eq_zero_iff] at *
  rw [BitVec.getLsbD_add (by decide), hx, hy]
  simp

theorem lenBytes_and_one (len : Len) : lenBytes len &&& 1 = 0 := by cases len <;> decide

/-- The target of a call or jump is even where the pc is. -/
theorem targetOf_and_one {s : State} (t : Target) (h : s.pc &&& 1 = 0) : targetOf s t &&& 1 = 0 := by
  cases t with
  | rel disp => exact add_and_one h (and_one_eq_zero_iff.mpr (by simp))
  | abs disp => exact and_one_eq_zero_iff.mpr (by simp only [targetOf, BitVec.getLsbD_append]; simp)
  | ind a => exact evenAddr_and_one _

/-- PCXI built from its fields has its reserved bits clear. -/
theorem mkPcxi_and_reserved (pcpn : BitVec 8) (pie ul : Bool) (pcx : BitVec 20) :
    mkPcxi pcpn pie ul pcx &&& ~~~pcxiMask = 0 := by
  rw [bits_clear_iff]
  intro i hi hm
  have : i = 20 ∨ i = 21 := by revert hm; revert i; decide
  simp only [mkPcxi, BitVec.getLsbD_append]
  rcases this with rfl | rfl <;> simp

/-- MMU_TFA holds a page number of 22 bits at most. -/
theorem faultPage_and_reserved (s : State) (va : Word) : faultPage s va &&& 0xFFC00000 = 0 := by
  rw [bits_clear_iff]
  intro i hi hm
  have : 22 ≤ i := by revert hm; revert i; decide
  rw [faultPage, BitVec.getLsbD_ushiftRight]
  exact BitVec.getLsbD_of_ge va _ (by omega)

/-! ### One rule per operation of the state

A state is well kept whatever its registers, its service requests and the model's own counters hold, so a rule names only the
fields its operation writes that carry reserved bits. -/

theorem State.Inv.setD {s : State} (h : s.Inv) (r : Fin 16) (v : Word) : (s.setD r v).Inv := { h with }
theorem State.Inv.setA {s : State} (h : s.Inv) (r : Fin 16) (v : Word) : (s.setA r v).Inv := { h with }
theorem State.Inv.useFree {s : State} (h : s.Inv) : (Machine.useFree s).Inv := { h with }

theorem State.Inv.advance {s : State} (h : s.Inv) (len : Len) : (Machine.advance len s).Inv :=
  { h with pc := add_and_one h.pc (lenBytes_and_one len) }

theorem State.Inv.setCompleted {s : State} (h : s.Inv) (b : Bool) : { s with completed := b }.Inv := { h with }

theorem State.Inv.spendAsi {s : State} (h : s.Inv) : (Machine.spendAsi s).Inv := by
  unfold Machine.spendAsi
  split
  · exact h.useFree
  · exact h

theorem State.Inv.applyUpdate {s : State} (h : s.Inv) (u : Option (Fin 16 × Word)) : (Machine.applyUpdate s u).Inv := by
  cases u with
  | none => exact h
  | some p => exact h.setA p.1 p.2

theorem State.Inv.putAddr {s : State} (h : s.Inv) (m : Mode) (r : Fin 16) (v : Word) : (Machine.putAddr m r v s).Inv := by
  unfold Machine.putAddr
  split
  · split
    · exact h.useFree
    · exact (h.setA r v).useFree
  · exact h.setA r v

theorem State.Inv.useStored {s : State} (h : s.Inv) (m : Mode) (r : Fin 16) : (Machine.useStored m r s).Inv := by
  unfold Machine.useStored
  split
  · exact h.useFree
  · exact h

/-! #### The bus -/

/-- A bus access keeps a state well kept: all it can change is memory, the service requests and the model's own counters. -/
theorem State.Inv.of_eraseBus {s t : State} (h : s.Inv) (he : t.eraseBus = s.eraseBus) (hm : Memory.wf t.mem = true)
    (hl : t.extraSrc.length = s.extraSrc.length) : t.Inv := by
  have e : t = { s.eraseBus with
      mem := t.mem, cpuSrc := t.cpuSrc, sbSrc := t.sbSrc, extraSrc := t.extraSrc, daePending := t.daePending,
      freeCount := t.freeCount, devices := t.devices } := by rw [← he]; rfl
  rw [e]
  exact { h with mem := hm, extraSrc := hl.trans h.extraSrc }

theorem State.Inv.physRead {s : State} (h : s.Inv) (pas : List Word) : (Machine.physRead s pas).2.Inv := by
  obtain ⟨he, hm, hx⟩ := physRead_eraseBus s pas
  exact h.of_eraseBus he (hm ▸ h.mem) (congrArg List.length hx)

theorem State.Inv.physWrite {s : State} (h : s.Inv) (pas : List Word) (bs : List Byte) : (Machine.physWrite s pas bs).Inv :=
  h.of_eraseBus (physWrite_eraseBus s pas bs).1 (wf_physWrite s pas bs h.mem) (physWrite_eraseBus s pas bs).2.2

theorem State.Inv.writeMemory {s : State} (h : s.Inv) (pas : List Word) (bs : List Byte) :
    (Machine.writeMemory s pas bs).Inv := by
  rw [writeMemory_eq]
  exact { h with mem := wf_writeMemory s pas bs h.mem }

theorem State.Inv.setNode {s : State} (h : s.Inv) (k : Nat) (n : Src) : (Machine.setNode s k n).Inv :=
  h.of_eraseBus (setNode_eraseBus s k n) (by rw [setNode_eq]; exact h.mem) (setNode_extraSrc_length s k n)

theorem State.Inv.setSrr {s : State} (h : s.Inv) (b : Bool) (k : Nat) : (Machine.setSrr b s k).Inv := by
  unfold Machine.setSrr
  split
  · exact h.setNode k _
  · exact h

/-- An invariant of every step of a fold is one of the fold. -/
theorem State.Inv.foldl {α : Type} {f : State → α → State} (hf : ∀ s a, s.Inv → (f s a).Inv) (l : List α) :
    ∀ {s : State}, s.Inv → (l.foldl f s).Inv := by
  induction l with
  | nil => exact id
  | cons a l ih => exact fun h => ih (hf _ a h)

theorem State.Inv.acknowledge {s : State} (h : s.Inv) (p : BitVec 8) : (Machine.acknowledge s p).Inv := by
  have clear (ks : List Nat) : (ks.foldl (Machine.setSrr false) s).Inv := State.Inv.foldl (fun _ k hs => hs.setSrr false k) ks h
  unfold Machine.acknowledge
  dsimp only
  split
  · exact clear _
  · exact (clear _).useFree

/-! #### Contexts and exceptions -/

theorem State.Inv.loadUpperRegs {s : State} (h : s.Inv) (bs : List Byte) : (Machine.loadUpperRegs bs s).Inv := { h with }
theorem State.Inv.loadLowerRegs {s : State} (h : s.Inv) (bs : List Byte) : (Machine.loadLowerRegs bs s).Inv := { h with }

theorem State.Inv.saved {s : State} (h : s.Inv) (upper : Bool) : (Machine.saved upper s).Inv :=
  { (h.physRead (addrs (csaEa (ctxPtr s.fcx)) 4)).physWrite (addrs (csaEa (ctxPtr s.fcx)) 64)
      (wordsBytes (ctxWords upper s)) with
    pcxi := mkPcxi_and_reserved _ _ _ _
    fcx := setWidth_and_eq_zero _ (by decide) }

theorem State.Inv.dropUpper {s : State} (h : s.Inv) : (Machine.dropUpper s).Inv := by
  rw [dropUpper_eq]
  exact { h with }

theorem State.Inv.save {s t : State} (h : s.Inv) {upper : Bool} (hs : Machine.save upper s = some t) : t.Inv := by
  obtain ⟨-, rfl⟩ := (save_eq_some upper s t).mp hs
  split
  · exact (h.saved true).dropUpper
  · exact h.saved false

theorem State.Inv.restored {s : State} (h : s.Inv) (upper : Bool) : (Machine.restored upper s).Inv := by
  have hw := (h.physRead (addrs (csaEa (ctxPtr s.pcxi)) 64)).physWrite (addrs (csaEa (ctxPtr s.pcxi)) 4) (wordBytes s.fcx)
  simp only [Machine.restored]
  generalize (Machine.physRead s (addrs (csaEa (ctxPtr s.pcxi)) 64)).1 = bs
  generalize Machine.physWrite _ _ _ = u at hw ⊢
  have h3 : { u with fcx := (ctxPtr s.pcxi).setWidth 32, pcxi := wordAt bs 0 &&& pcxiMask }.Inv :=
    { hw with fcx := setWidth_and_eq_zero _ (by decide), pcxi := cut_and_eq_zero (by decide) }
  split
  · exact { h3.loadUpperRegs bs with psw := cut_and_eq_zero (by decide) }
  · exact (h3.loadLowerRegs bs).setA 11 _

theorem entryPsw_and_reserved {w : Word} (h : w &&& ~~~pswMask = 0) : entryPsw w &&& ~~~pswMask = 0 :=
  setField_and_eq_zero h (by decide)

theorem State.Inv.dropAfterFcu {s : State} (h : s.Inv) : (Machine.dropAfterFcu s).Inv := by
  unfold Machine.dropAfterFcu
  split
  · exact h
  · exact { h.writeMemory _ _ with
      pcxi := cut_and_eq_zero (by decide), fcx := setWidth_and_eq_zero _ (by decide)
      psw := setField_and_eq_zero h.psw (by decide) }

theorem State.Inv.takeFcu {s : State} (h : s.Inv) : (Machine.takeFcu s).Inv :=
  { h.dropAfterFcu with
    psw := setField_and_eq_zero h.dropAfterFcu.psw (by decide)
    icr := setBit_and_eq_zero h.dropAfterFcu.icr (by decide)
    pc := evenAddr_and_one _ }

theorem State.Inv.enterTrap {s : State} (h : s.Inv) (tcn : BitVec 3) (tin : BitVec 8) (ra : Word) :
    (Machine.enterTrap tcn tin ra s).Inv := by
  unfold Machine.enterTrap
  split
  next => exact h.takeFcu
  next s1 hs =>
    have h1 := h.save hs
    exact { h1 with
      psw := entryPsw_and_reserved h1.psw, icr := setBit_and_eq_zero h1.icr (by decide), pc := evenAddr_and_one _ }

theorem State.Inv.recordTrap {s : State} (h : s.Inv) (t : Trap) : (Machine.recordTrap t s).Inv := by
  obtain ⟨htva, htpa, htpx, -⟩ := h.mmuResults
  unfold Machine.recordTrap
  split
  · exact { h with mmuResults := ⟨htva, htpa, htpx, faultPage_and_reserved s _⟩ }
  · exact { h with mmuResults := ⟨htva, htpa, htpx, faultPage_and_reserved s _⟩ }
  · exact h

theorem State.Inv.takeTrap {s : State} (h : s.Inv) (t : Trap) : (Machine.takeTrap t s).Inv :=
  (h.recordTrap t).enterTrap _ _ _

theorem State.Inv.takeInterrupt {s : State} (h : s.Inv) : (Machine.takeInterrupt s).Inv := by
  unfold Machine.takeInterrupt
  split
  next => exact h.takeFcu
  next s1 hs =>
    have h1 := h.save hs
    refine State.Inv.acknowledge ?_ _
    exact { h1 with
      psw := entryPsw_and_reserved h1.psw
      icr := setField_and_eq_zero (setField_and_eq_zero (setBit_and_eq_zero h1.icr (by decide)) (by decide)) (by decide)
      pc := evenAddr_and_one _ }

/-! #### Core registers -/

theorem getElem_set_fin {α : Type} {n : Nat} (v : Vector α n) (i j : Fin n) (x : α) :
    (v.set i x)[j] = if i = j then x else v[j] := by
  simp [Vector.getElem_set, Fin.ext_iff]

theorem State.Inv.setProt {s : State} (h : s.Inv) (x : Fin 4) (p : ProtSet)
    (hr : ∀ n : Fin 4, p.cprL[n] &&& 1 = 0 ∧ p.cprU[n] &&& 1 = 0) (hm : p.cpm &&& 0x56565656 = 0) :
    (Machine.setProt s x p).Inv :=
  { h with
    cpr := fun y n => by
      simp only [Machine.setProt, getElem_set_fin]
      split
      · exact hr n
      · exact h.cpr y n
    cpm := fun y => by
      simp only [Machine.setProt, getElem_set_fin]
      split
      · exact hm
      · exact h.cpm y }

/-- A vector of even words stays one where an even word is written. -/
theorem set_evenAddr_and_one {v : Vector Word 4} (h : ∀ n : Fin 4, v[n] &&& 1 = 0) (k : Fin 4) (w : Word) (n : Fin 4) :
    (v.set k (evenAddr w))[n] &&& 1 = 0 := by
  rw [getElem_set_fin]
  split
  · exact evenAddr_and_one w
  · exact h n

theorem writeDbgsr_and_reserved {w : Word} (v : Word) (h : w &&& 0xFFFFE02C = 0) : writeDbgsr w v &&& 0xFFFFE02C = 0 := by
  have hm : maskedWrite w 0x00000090 v &&& 0xFFFFE02C = 0 := maskedWrite_and_eq_zero h (by decide)
  have hb (b : Bool) : setBit (maskedWrite w 0x00000090 v) 1 b &&& 0xFFFFE02C = 0 := setBit_and_eq_zero hm (by decide)
  unfold writeDbgsr
  dsimp only
  split
  · split
    · split
      · exact hb true
      · exact hm
    · exact hb false
  · exact hm

theorem State.Inv.csfrWrite {s : State} (h : s.Inv) (r : Csfr) (v : Word) : (Machine.csfrWrite s r v).Inv := by
  obtain ⟨hex, hcr, hsw⟩ := h.events
  cases r with
  | pcxi => exact { h with pcxi := cut_and_eq_zero (by decide) }
  | psw => exact { h with psw := cut_and_eq_zero (by decide) }
  | syscon => exact { h with syscon := cut_and_eq_zero (by decide) }
  | biv =>
    dsimp only [Machine.csfrWrite]
    split
    · exact h
    · exact { h with biv := evenAddr_and_one v }
  | btv =>
    dsimp only [Machine.csfrWrite]
    split
    · exact h
    · exact { h with btv := evenAddr_and_one v }
  | isp =>
    dsimp only [Machine.csfrWrite]
    split
    · exact h
    · exact { h with }
  | icr => exact { h with icr := maskedWrite_and_eq_zero h.icr (by decide) }
  | fcx => exact { h with fcx := cut_and_eq_zero (by decide) }
  | lcx => exact { h with lcx := cut_and_eq_zero (by decide) }
  | dprL x n | dprU x n | dpm x => exact h.setProt x _ (h.cpr x) (h.cpm x)
  | cprL x n => exact h.setProt x _ (fun k => ⟨set_evenAddr_and_one (fun j => (h.cpr x j).1) n v k, (h.cpr x k).2⟩) (h.cpm x)
  | cprU x n => exact h.setProt x _ (fun k => ⟨(h.cpr x k).1, set_evenAddr_and_one (fun j => (h.cpr x j).2) n v k⟩) (h.cpm x)
  | cpm x => exact h.setProt x _ (h.cpr x) (cut_and_eq_zero (by decide))
  | mmuCon =>
    dsimp only [Machine.csfrWrite]
    split
    · exact h
    · exact { h with mmuCon := maskedWrite_and_eq_zero h.mmuCon (by decide) }
  | mmuAsi =>
    dsimp only [Machine.csfrWrite]
    split
    · exact h
    · exact { h with mmuAsi := cut_and_eq_zero (by decide) }
  | pc | cpuId | mmuTva | mmuTpa | mmuTpx | mmuTfa => exact h
  | dbgsr => exact { h with dbgsr := writeDbgsr_and_reserved v h.dbgsr }
  | exevt => exact { h with events := ⟨cut_and_eq_zero (by decide), hcr, hsw⟩ }
  | crevt => exact { h with events := ⟨hex, cut_and_eq_zero (by decide), hsw⟩ }
  | swevt => exact { h with events := ⟨hex, hcr, cut_and_eq_zero (by decide)⟩ }
  | trEvt n =>
    refine { h with triggers := fun k => ?_ }
    simp only [Machine.csfrWrite, getElem_set_fin]
    split
    · exact cut_and_eq_zero (by decide)
    · exact h.triggers k
  | dms => exact { h with dms := evenAddr_and_one v }
  | dcx => exact { h with dcx := cut_and_eq_zero (by decide) }

theorem State.Inv.mtcrEffect {s : State} (h : s.Inv) (off : BitVec 16) (v : Word) : (Machine.mtcrEffect s off v).Inv := by
  unfold Machine.mtcrEffect
  split
  · exact h.csfrWrite _ v
  · exact h

/-! ### The environment -/

/-- Reset leaves a well-kept state, whatever the implementation (70 R782 to R784). -/
theorem resetOf_inv (p : Platform) : (State.resetOf p).Inv where
  mem := rfl
  pc := evenAddr_and_one _
  psw := show (0x00000B80 : Word) &&& ~~~pswMask = 0 by decide
  pcxi := BitVec.zero_and
  fcx := BitVec.zero_and
  lcx := BitVec.zero_and
  icr := BitVec.zero_and
  biv := evenAddr_and_one _
  btv := evenAddr_and_one _
  syscon := BitVec.zero_and
  cpr := fun x n => by simp [State.resetOf, ProtSet.reset]
  mmuCon := by
    dsimp only [State.resetOf]
    split
    · rw [bits_clear_iff]
      intro i hi hm
      have : ¬ (5 ≤ i ∧ i < 12) := by revert hm; revert i; decide
      by_cases h5 : i < 5
      · simp [h5]
      · simp [BitVec.getLsbD_of_ge p.tlbTsz (i - 5) (by omega)]
    · decide
  mmuAsi := BitVec.zero_and
  mmuResults := ⟨BitVec.zero_and, BitVec.zero_and, BitVec.zero_and, BitVec.zero_and⟩
  dbgsr := by
    dsimp only [State.resetOf]
    split <;> decide
  events := ⟨BitVec.zero_and, BitVec.zero_and, BitVec.zero_and⟩
  triggers := fun n => by simp [State.resetOf]
  cpm := fun x => by simp [State.resetOf, ProtSet.reset]
  dms := evenAddr_and_one _
  dcx := cut_and_eq_zero (by decide)
  tlbA := List.length_replicate
  tlbB := List.length_replicate
  extraSrc := List.length_map _

theorem State.Inv.resetEvent {s : State} (h : s.Inv) : (Machine.resetEvent s).Inv :=
  { resetOf_inv s.platform with mem := h.mem }

theorem State.Inv.agentWrite {s : State} (h : s.Inv) (off : BitVec 16) (v : Word) : (Machine.agentWrite s off v).Inv := by
  unfold Machine.agentWrite
  dsimp only
  split
  · exact h.setD _ v
  · split
    · exact h.setA _ v
    · exact h.mtcrEffect off v

theorem State.Inv.setMemByte {s : State} (h : s.Inv) (a : Word) (b : Byte) : (s.setMemByte a b).Inv :=
  { h with mem := s.wf_setMemByte a b h.mem }

/-- No event of the environment spoils a well-kept state. -/
theorem State.Inv.applyEvent {s : State} (h : s.Inv) (e : InputEvent) : (Machine.applyEvent s e).Inv := by
  cases e with
  | reset => exact h.resetEvent
  | endinit | nmi | dae => exact { h with }
  | setRequest k =>
    dsimp only [Machine.applyEvent]
    split
    · exact h
    · exact h.setSrr true k
  | clearRequest k => exact h.setSrr false k
  | breakIn => exact h
  | debugEnable on => exact { h with dbgsr := setBit_and_eq_zero h.dbgsr (by decide) }
  | writeMem a b =>
    dsimp only [Machine.applyEvent]
    split
    · exact h.setMemByte a b
    · exact h
  | writeCsfr off v => exact h.agentWrite off v
  | writeSrc k v =>
    dsimp only [Machine.applyEvent]
    split
    · exact h.setNode k _
    · exact h

theorem State.Inv.sampled {s : State} (h : s.Inv) : (Machine.sampled s).Inv := by
  have ht : (applyInputs s).Inv := State.Inv.foldl (fun _ e hs => hs.applyEvent e) _ { h with }
  exact { ht with icr := setField_and_eq_zero ht.icr (by decide) }

/-! ### Meanings that leave a well-kept state -/

/-- A part of a meaning ends well: what it answers satisfies `P`, and a state that a debug action left is well kept. The
traps, FCU entries and stops it may end in carry no state. -/
def EndsWell {α : Type} (P : α → Prop) : Except Stop α → Prop
  | .ok a => P a
  | .error (.debugged t) => t.Inv
  | .error (.trap _) | .error .fcu | .error (.fault _) | .error (.refuse _) => True

/-- An outcome is well kept: its next state is, if it has one. -/
def WellKept : Host.Outcome State Fault Refusal → Prop
  | .next t => t.Inv
  | .fault _ | .refused _ => True

theorem EndsWell.ok {α : Type} {P : α → Prop} {a : α} (h : P a) : EndsWell P (.ok a) := h

/-- What a part of a meaning stops with does not depend on what it would have answered. -/
theorem EndsWell.stop {α β : Type} {P : α → Prop} {Q : β → Prop} {e : Stop}
    (h : EndsWell P (.error e : Except Stop α)) : EndsWell Q (.error e : Except Stop β) := by
  cases e <;> exact h

theorem EndsWell.bind {α β : Type} {P : α → Prop} {Q : β → Prop} {x : Except Stop α} {f : α → Except Stop β}
    (hx : EndsWell P x) (hf : ∀ a, P a → EndsWell Q (f a)) : EndsWell Q (x >>= f) := by
  cases x with
  | ok a => exact hf a hx
  | error e => exact EndsWell.stop hx

/-- A guard before a part of a meaning. -/
theorem EndsWell.after {α β : Type} {Q : β → Prop} {x : Except Stop α} {f : α → Except Stop β}
    (hx : EndsWell (fun _ => True) x) (hf : ∀ a, EndsWell Q (f a)) : EndsWell Q (x >>= f) :=
  hx.bind fun a _ => hf a

theorem endsWell_raiseIf (b : Bool) (t : Trap) : EndsWell (fun _ => True) (raiseIf b t) := by
  cases b <;> exact trivial

theorem endsWell_stopIf_fault (b : Bool) (f : Fault) : EndsWell (fun _ => True) (stopIf b (.fault f)) := by
  cases b <;> exact trivial

theorem endsWell_stopIf_refuse (b : Bool) (r : Refusal) : EndsWell (fun _ => True) (stopIf b (.refuse r)) := by
  cases b <;> exact trivial

theorem endsWell_stopIf_debugged (b : Bool) {t : State} (h : t.Inv) :
    EndsWell (fun _ => True) (stopIf b (.debugged t)) := by
  cases b
  · exact trivial
  · exact h

theorem endsWell_opd (b : Bool) : EndsWell (fun _ => True) (opd b) := endsWell_raiseIf b _
theorem endsWell_grwp (s : State) (b : Bool) : EndsWell (fun _ => True) (grwp s b) := endsWell_raiseIf _ _
theorem endsWell_supervisorOnly (s : State) : EndsWell (fun _ => True) (supervisorOnly s) := endsWell_raiseIf _ _
theorem endsWell_mmuPrologue (s : State) : EndsWell (fun _ => True) (mmuPrologue s) :=
  (endsWell_raiseIf _ _).bind fun _ _ => endsWell_supervisorOnly s

theorem endsWell_translateAll (s : State) (ea : Word) (vas : List Word) (x r w : Bool) :
    EndsWell (fun _ => True) (translateAll s ea vas x r w) :=
  (endsWell_raiseIf _ _).after fun _ => (endsWell_raiseIf _ _).after fun _ => (endsWell_stopIf_fault _ _).after fun _ => .ok trivial

theorem endsWell_checkData (s : State) (m : Mode) (kind : AccessKind) : EndsWell (fun _ => True) (checkData s m kind) :=
  (endsWell_raiseIf _ _).after fun _ => (endsWell_raiseIf _ _).after fun _ => (endsWell_raiseIf _ _).after fun _ =>
  (endsWell_translateAll _ _ _ _ _ _).after fun _ => (endsWell_stopIf_fault _ _).after fun _ => (endsWell_raiseIf _ _).after fun _ =>
  (endsWell_raiseIf _ _).after fun _ => (endsWell_raiseIf _ _).after fun _ => (endsWell_stopIf_refuse _ _).after fun _ =>
  (endsWell_raiseIf _ _).after fun _ => .ok trivial

theorem endsWell_checkCsa (s : State) (ea : Word) (reads : Bool) : EndsWell (fun _ => True) (checkCsa s ea reads) :=
  (endsWell_raiseIf _ _).after fun _ => (endsWell_stopIf_refuse _ _).after fun _ => endsWell_raiseIf _ _

theorem endsWell_checkCtx (s : State) (m : Mode) (reads : Bool) : EndsWell (fun _ => True) (checkCtx s m reads) :=
  (endsWell_raiseIf _ _).after fun _ => (endsWell_raiseIf _ _).after fun _ => (endsWell_raiseIf _ _).after fun _ =>
  (endsWell_checkCsa _ _ _).after fun _ => .ok trivial

theorem endsWell_restore {s : State} (h : s.Inv) (upper : Bool) : EndsWell State.Inv (restore upper s) := by
  refine (endsWell_raiseIf _ _).after fun _ => (endsWell_checkCsa _ _ _).after fun _ => .ok ?_
  exact h.restored upper

theorem endsWell_saveOrFcu {s : State} (h : s.Inv) (upper : Bool) : EndsWell State.Inv (saveOrFcu upper s) := by
  unfold saveOrFcu
  split
  next t hs => exact .ok (h.save hs)
  next => exact trivial

/-- An instruction from a well-kept state whose own effect ends well has a well-kept outcome. -/
theorem EndsWell.finish {s : State} {r : Res} (h : s.Inv) (hr : EndsWell State.Inv r) : WellKept (Machine.finish s r) := by
  cases r with
  | ok u => exact State.Inv.setCompleted hr true
  | error e =>
    cases e with
    | trap p => exact h.takeTrap p
    | fcu => exact h.takeFcu
    | debugged u => exact State.Inv.setCompleted hr false
    | fault | refuse => exact trivial

/-! ### Debug events -/

theorem updateDbgsr_and_reserved {s : State} (e : DebugEvent) (h : s.dbgsr &&& 0xFFFFE02C = 0) :
    updateDbgsr s e &&& 0xFFFFE02C = 0 := by
  have hw : setBit (setBit (setField s.dbgsr 8 e.code) 6 (dbgSusp s.dbgsr)) 4 (evtSusp e.reg) &&& 0xFFFFE02C = 0 :=
    setBit_and_eq_zero (setBit_and_eq_zero (setField_and_eq_zero h (by decide)) (by decide)) (by decide)
  unfold updateDbgsr
  dsimp only
  split
  · exact setBit_and_eq_zero hw (by decide)
  · exact hw

theorem State.Inv.breakpointTrap {s : State} (h : s.Inv) : (Machine.breakpointTrap s).Inv :=
  { h.physWrite (addrs s.dcx 16) (wordsBytes [s.pcxi, s.psw, s.ar 10, s.ar 11]) with
    psw := setField_and_eq_zero h.psw (by decide)
    icr := setBit_and_eq_zero h.icr (by decide)
    pc := evenAddr_and_one _ }

theorem endsWell_debugEvent {s : State} (h : s.Inv) (e : DebugEvent) : EndsWell State.Inv (debugEvent e s) := by
  have h1 : { s with dbgsr := updateDbgsr s e, breakOuts := s.breakOuts + 1 }.Inv :=
    { h with dbgsr := updateDbgsr_and_reserved e h.dbgsr }
  unfold debugEvent
  dsimp only
  split
  · exact .ok h1
  · split
    · exact .ok { h1 with dbgsr := setBit_and_eq_zero h1.dbgsr (by decide) }
    · split
      · split
        · exact trivial
        · exact .ok h1.breakpointTrap
      · refine .ok ?_
        split
        · exact h1.setNode _ _
        · exact h1

theorem endsWell_eventBefore {s : State} (h : s.Inv) (e : DebugEvent) : EndsWell State.Inv (eventBefore e s) := by
  unfold eventBefore
  split
  · refine (endsWell_debugEvent h e).bind fun t ht => (endsWell_stopIf_debugged _ ht).after fun _ => .ok ht
  · exact .ok h

theorem endsWell_eventAfter {t : State} (h : t.Inv) (e : DebugEvent) (s : State) :
    EndsWell State.Inv (eventAfter e s t) := by
  unfold eventAfter
  split
  · exact endsWell_debugEvent h e
  · exact .ok h

/-- The debug event of an instruction around its body. -/
theorem wellKept_withEvent {s : State} (h : s.Inv) (e : DebugEvent) {body : State → Res}
    (hb : ∀ u : State, u.Inv → EndsWell State.Inv (body u)) : WellKept (withEvent e body s) := by
  have he := endsWell_eventBefore h e
  unfold withEvent
  split
  next stop hs =>
    rw [hs] at he
    exact EndsWell.finish h he.stop
  next s1 hs =>
    rw [hs] at he
    exact EndsWell.finish he ((hb s1 he).bind fun t ht => endsWell_eventAfter ht e s1)

/-! ### The shapes of the instructions -/

theorem State.Inv.setPsw {s : State} (h : s.Inv) {w : Word} (hw : w &&& ~~~pswMask = 0) : { s with psw := w }.Inv :=
  { h with psw := hw }
theorem State.Inv.setPc {s : State} (h : s.Inv) {w : Word} (hw : w &&& 1 = 0) : { s with pc := w }.Inv := { h with pc := hw }
theorem State.Inv.setIe {s : State} (h : s.Inv) (b : Bool) : { s with icr := setBit s.icr 8 b }.Inv :=
  { h with icr := setBit_and_eq_zero h.icr (by decide) }

/-! The computations on PSW.USB and PSW.CDC leave the reserved bits clear. -/

theorem addFlags_and_reserved {w : Word} (h : w &&& ~~~pswMask = 0) (x y : Word) (cin : Bool) :
    addFlags w x y cin &&& ~~~pswMask = 0 := setField_and_eq_zero h (by decide)
theorem clearOverflow_and_reserved {w : Word} (h : w &&& ~~~pswMask = 0) : clearOverflow w &&& ~~~pswMask = 0 :=
  setField_and_eq_zero h (by decide)
theorem fpFlags_and_reserved {w : Word} (h : w &&& ~~~pswMask = 0) (f : FpFlags) : fpFlags w f &&& ~~~pswMask = 0 :=
  setField_and_eq_zero h (by decide)
theorem updateFlags_and_reserved {w : Word} (h : w &&& ~~~pswMask = 0) (v : Word) : updateFlags w v &&& ~~~pswMask = 0 :=
  setField_and_eq_zero h (by decide)
theorem callPsw_and_reserved {w : Word} (h : w &&& ~~~pswMask = 0) : callPsw w &&& ~~~pswMask = 0 := by
  refine setBit_and_eq_zero ?_ (by decide)
  split
  · exact setField_and_eq_zero h (by decide)
  · exact h

theorem endsWell_loadShape {s : State} (h : s.Inv) {len : Len} {m : Mode} {kind : AccessKind} {odd global : Bool}
    {put : List Byte → State → State} (hput : ∀ bs t, t.Inv → (put bs t).Inv) :
    EndsWell State.Inv (loadShape len m kind odd global put s) :=
  (endsWell_opd _).after fun _ => (endsWell_grwp _ _).after fun _ => (endsWell_checkData _ _ _).after fun pas =>
  .ok ((hput _ _ ((h.physRead pas).applyUpdate _)).advance len)

theorem endsWell_storeShape {s : State} (h : s.Inv) (len : Len) (m : Mode) (kind : AccessKind) (odd : Bool)
    (bs : List Byte) : EndsWell State.Inv (storeShape len m kind odd bs s) :=
  (endsWell_opd _).after fun _ => (endsWell_grwp _ _).after fun _ => (endsWell_checkData _ _ _).after fun pas =>
  .ok (((h.physWrite pas bs).applyUpdate _).advance len)

theorem endsWell_rmwShape {s : State} (h : s.Inv) {len : Len} {m : Mode} {kind : AccessKind} {odd : Bool}
    {new : List Byte → List Byte} {put : List Byte → State → State} (hput : ∀ bs t, t.Inv → (put bs t).Inv) :
    EndsWell State.Inv (rmwShape len m kind odd new put s) :=
  (endsWell_opd _).after fun _ => (endsWell_grwp _ _).after fun _ => (endsWell_checkData _ _ _).after fun pas =>
  .ok ((hput _ _ (((h.physRead pas).physWrite pas _).applyUpdate _)).advance len)

theorem endsWell_fpShape {s : State} (h : s.Inv) (len : Len) (c : Fin 16) (r : FpResult) :
    EndsWell State.Inv (fpShape len c r s) :=
  (endsWell_raiseIf _ _).after fun _ =>
  .ok (((h.setD c r.bits).setPsw (fpFlags_and_reserved h.psw r.flags)).advance len)

theorem EndsWell.map {x : Res} {f : State → State} (hx : EndsWell State.Inv x) (hf : ∀ t, t.Inv → (f t).Inv) :
    EndsWell State.Inv (x.map f) := by
  cases x with
  | ok t => exact hf t hx
  | error e => exact EndsWell.stop hx

theorem endsWell_storeCtx {s : State} (h : s.Inv) (len : Len) (m : CtxMode) (upper : Bool) :
    EndsWell State.Inv (storeCtx len m upper s) :=
  (endsWell_checkCtx _ _ _).after fun pas => .ok ((h.physWrite pas _).advance len)

/-- A return passes its guards, restores the upper context and moves the pc and ICR alone. -/
theorem endsWell_returns {s : State} (h : s.Inv) :
    EndsWell State.Inv (returnFromCall s) ∧ EndsWell State.Inv (returnFromException s) := by
  constructor
  · refine (endsWell_raiseIf _ _).after fun _ => (endsWell_raiseIf _ _).after fun _ => (endsWell_raiseIf _ _).after fun _ =>
      (endsWell_restore h true).bind fun t ht => .ok ?_
    exact { ht with pc := evenAddr_and_one _ }
  · refine (endsWell_raiseIf _ _).after fun _ => (endsWell_raiseIf _ _).after fun _ => (endsWell_raiseIf _ _).after fun _ =>
      (endsWell_restore h true).bind fun t ht => .ok ?_
    exact { ht with
      pc := evenAddr_and_one _
      icr := setField_and_eq_zero (setBit_and_eq_zero h.icr (by decide)) (by decide) }

/-! #### The MMU -/

theorem State.Inv.setTlbs {s : State} (h : s.Inv) {a b : List Tte} (ha : a.length = s.tlbA.length)
    (hb : b.length = s.tlbB.length) (maps : List (Bool × Nat)) (k : Nat) :
    { s with tlbA := a, tlbB := b, recentMaps := maps, freeCount := k }.Inv :=
  { h with tlbA := ha.trans h.tlbA, tlbB := hb.trans h.tlbB }

theorem dropSome_length (s : State) (tlb : Bool) (l : List Tte) : (dropSome s tlb l).length = l.length := by
  simp [dropSome]

theorem State.Inv.tlbmapEffect {s : State} (h : s.Inv) (lo hi : Word) : (Machine.tlbmapEffect s lo hi).Inv := by
  unfold Machine.tlbmapEffect
  dsimp only
  split
  · exact h.setTlbs (by simp) (by simp) _ _
  · refine h.setTlbs ?_ ?_ _ _ <;> split <;> simp [dropSome_length]

theorem probeResult_and_reserved (t : Tte) (i : Nat) :
    let s := probeResult State.reset t i
    s.mmuTva &&& 0xE0C00000 = 0 ∧ s.mmuTpa &&& 0x00C00000 = 0 ∧ s.mmuTpx &&& 0xFFFFFF00 = 0 := by
  refine ⟨?_, ?_, setWidth_and_eq_zero _ (by decide)⟩
  · rw [bits_clear_iff]
    intro j hj hm
    have : j = 22 ∨ j = 23 ∨ j = 29 ∨ j = 30 ∨ j = 31 := by revert hm; revert j; decide
    simp only [probeResult, BitVec.getLsbD_append]
    rcases this with rfl | rfl | rfl | rfl | rfl <;> simp
  · rw [bits_clear_iff]
    intro j hj hm
    have : j = 22 ∨ j = 23 := by revert hm; revert j; decide
    simp only [probeResult, BitVec.getLsbD_append]
    rcases this with rfl | rfl <;> simp

theorem State.Inv.probeAt {s : State} (h : s.Inv) (i : Option Nat) : (Machine.probeAt s i).Inv := by
  obtain ⟨-, -, -, htfa⟩ := h.mmuResults
  have miss : (probeMiss s).Inv := { h with
    mmuResults := ⟨cut_and_eq_zero (by decide), cut_and_eq_zero (by decide), cut_and_eq_zero (by decide), htfa⟩ }
  unfold Machine.probeAt
  split
  · exact miss
  · split
    · split
      next t _ _ =>
        obtain ⟨hva, hpa, hpx⟩ := probeResult_and_reserved t _
        exact { h with mmuResults := ⟨hva, hpa, hpx, htfa⟩ }
      next => exact miss
    · exact miss

/-! ### Every instruction -/

/-- An instruction from a well-kept state has a well-kept outcome. -/
theorem exec_wellKept {s : State} (h : s.Inv) (i : Instr) : WellKept (exec i s) := by
  have pair (len : Len) (r : Fin 16) (v : Word) : (advance len (s.setD r v)).Inv := (h.setD r v).advance len
  cases i
  case addF | subF | mulF | divF | maddF | msubF | qseedF | cmpF | ftoi | ftou | ftoq31 | itof | q31tof =>
    exact EndsWell.finish h (endsWell_fpShape h _ _ _)
  case updfl =>
    exact EndsWell.finish h ((endsWell_raiseIf _ _).after fun _ => .ok ((h.setPsw (updateFlags_and_reserved h.psw _)).advance _))
  case addc | addx => exact EndsWell.finish h (.ok (((h.setD _ _).setPsw (addFlags_and_reserved h.psw _ _ _)).advance _))
  case rstv => exact EndsWell.finish h (.ok ((h.setPsw (clearOverflow_and_reserved h.psw)).advance _))
  case eq | ne | lt | ge | clo | clz | cls => exact EndsWell.finish h (.ok (pair _ _ _))
  case cmov len a op =>
    refine EndsWell.finish h (.ok (State.Inv.advance ?_ _))
    split
    · exact h.setD _ _
    · exact h
  case extrU len c a f =>
    have hput (pos width : Nat) : (if fieldDefined pos width then s.setD c (extractField (s.dr a) pos width)
        else useFree (s.setD c (Config.freeWord s.freeCount 0))).Inv := by
      split
      · exact h.setD _ _
      · exact (h.setD _ _).useFree
    exact EndsWell.finish h ((endsWell_opd _).after fun _ => .ok ((hput _ _).advance len))
  case lea | addscA | addscAt =>
    exact EndsWell.finish h ((endsWell_grwp _ _).after fun _ => .ok ((h.setA _ _).advance _))
  case trapv | trapsv => exact EndsWell.finish h ((endsWell_raiseIf _ _).after fun _ => .ok (h.advance _))
  case nop | isync | dsync => exact EndsWell.finish h (.ok (h.advance _))
  case enable | disable =>
    exact EndsWell.finish h ((endsWell_raiseIf _ _).after fun _ =>
      .ok ((h.setIe _).advance _))
  case syscall len k => exact h.takeTrap (.sys k len)
  case ldB | ldBu | ldH | ldHu | ldW => exact EndsWell.finish h (endsWell_loadShape h fun _ _ ht => ht.setD _ _)
  case ldD => exact EndsWell.finish h (endsWell_loadShape h fun _ _ ht => (ht.setD _ _).setD _ _)
  case ldA => exact EndsWell.finish h (endsWell_loadShape h fun _ _ ht => ht.putAddr _ _ _)
  case ldDa => exact EndsWell.finish h (endsWell_loadShape h fun _ _ ht => (ht.putAddr _ _ _).putAddr _ _ _)
  case stB | stH | stW | stD => exact EndsWell.finish h (endsWell_storeShape h _ _ _ _ _)
  case stA => exact EndsWell.finish h ((endsWell_storeShape h _ _ _ _ _).map fun _ ht => ht.useStored _ _)
  case stDa =>
    exact EndsWell.finish h ((endsWell_storeShape h _ _ _ _ _).map fun _ ht => (ht.useStored _ _).useStored _ _)
  case ldmst | stT => exact EndsWell.finish h (endsWell_rmwShape h fun _ _ ht => ht)
  case swapW => exact EndsWell.finish h (endsWell_rmwShape h fun _ _ ht => ht.setD _ _)
  case call len t =>
    refine EndsWell.finish h ((?fcu : EndsWell (fun _ => True) (stopIf _ .fcu)).after fun _ =>
      (endsWell_raiseIf _ _).after fun _ => (endsWell_saveOrFcu h true).bind fun u hu => .ok ?_)
    case fcu => cases decide (ctxPtr s.fcx = 0) <;> exact trivial
    exact { hu with psw := callPsw_and_reserved h.psw, pc := targetOf_and_one t h.pc }
  case jl len t => exact EndsWell.finish h (.ok ((h.setA 11 (s.pc + lenBytes len)).setPc (targetOf_and_one t h.pc)))
  case ret => exact EndsWell.finish h (endsWell_returns h).1
  case rfe => exact EndsWell.finish h (endsWell_returns h).2
  case bisr =>
    refine EndsWell.finish h ((endsWell_supervisorOnly s).after fun _ =>
      (endsWell_saveOrFcu h false).bind fun u hu => .ok (State.Inv.advance ?_ _))
    exact { hu with icr := setField_and_eq_zero (setBit_and_eq_zero h.icr (by decide)) (by decide) }
  case svlcx => exact EndsWell.finish h ((endsWell_saveOrFcu h false).bind fun _ hu => .ok (hu.advance _))
  case rslcx =>
    exact EndsWell.finish h ((endsWell_raiseIf _ _).after fun _ => (endsWell_raiseIf _ _).after fun _ =>
      (endsWell_restore h false).bind fun _ hu => .ok (hu.advance _))
  case stlcx | stucx => exact EndsWell.finish h (endsWell_storeCtx h _ _ _)
  case ldlcx =>
    exact EndsWell.finish h ((endsWell_checkCtx _ _ _).after fun pas =>
      .ok (((h.physRead pas).loadLowerRegs _).advance _))
  case lducx =>
    exact EndsWell.finish h ((endsWell_checkCtx _ _ _).after fun pas =>
      .ok (((h.physRead pas).loadUpperRegs _).advance _))
  case mfcr len c off =>
    refine wellKept_withEvent h _ fun u hu => .ok (State.Inv.advance ?_ _)
    split
    · exact (hu.setD _ _).useFree
    · exact hu.setD _ _
  case mtcr =>
    exact wellKept_withEvent h _ fun u hu => (endsWell_supervisorOnly _).after fun _ =>
      (endsWell_stopIf_fault _ _).after fun _ => .ok ((hu.mtcrEffect _ _).advance _)
  case debug => exact wellKept_withEvent h _ fun u hu => .ok (hu.advance _)
  case rfm =>
    refine EndsWell.finish h ((endsWell_supervisorOnly s).after fun _ => ?_)
    split
    · refine (endsWell_raiseIf _ _).after fun _ => .ok ?_
      exact { h.physRead (addrs s.dcx 16) with
        psw := cut_and_eq_zero (by decide), pcxi := cut_and_eq_zero (by decide), pc := evenAddr_and_one _ }
    · exact .ok (h.advance _)
  case tlbmap =>
    exact EndsWell.finish h ((endsWell_opd _).after fun _ => (endsWell_mmuPrologue s).after fun _ =>
      .ok ((h.tlbmapEffect _ _).advance _))
  case tlbdemap =>
    exact EndsWell.finish h ((endsWell_mmuPrologue s).after fun _ =>
      .ok ((h.setTlbs (by simp [demap]) (by simp [demap]) _ _).advance _))
  case tlbflushA =>
    exact EndsWell.finish h ((endsWell_mmuPrologue s).after fun _ =>
      .ok ((h.setTlbs (by simp [flush]) rfl _ _).advance _))
  case tlbflushB =>
    exact EndsWell.finish h ((endsWell_mmuPrologue s).after fun _ =>
      .ok ((h.setTlbs rfl (by simp [flush]) _ _).advance _))
  case tlbprobeA | tlbprobeI =>
    exact EndsWell.finish h ((endsWell_mmuPrologue s).after fun _ => .ok ((h.probeAt _).advance _))

/-! ### The boundary -/

theorem endsWell_fetchHalf (s : State) (va : Word) : EndsWell (fun _ => True) (fetchHalf s va) :=
  (endsWell_translateAll _ _ _ _ _ _).after fun _ => (endsWell_raiseIf _ _).after fun _ => .ok trivial

theorem endsWell_fetch (s : State) : EndsWell (fun _ => True) (fetch s) := by
  refine (endsWell_translateAll _ _ _ _ _ _).after fun _ =>
    ((endsWell_stopIf_fault _ _).after fun _ => endsWell_raiseIf _ _).after fun _ =>
    (endsWell_fetchHalf _ _).after fun lo => ?_
  split
  · exact trivial
  · exact (endsWell_fetchHalf _ _).after fun hi => .ok trivial

theorem execOther_wellKept {s : State} (h : s.Inv) (w : Word) : WellKept (execOther w s) := by
  refine EndsWell.finish h ((endsWell_grwp _ _).after fun _ => .ok ?_)
  exact { h with psw := setField_and_eq_zero h.psw (by decide), pc := evenAddr_and_one _ }

/-- A trap raised in place of an instruction. -/
theorem State.Inv.finishTrap {s : State} (h : s.Inv) (t : Trap) : WellKept (finish s (.error (.trap t))) := h.takeTrap t

theorem runFetched_wellKept {s : State} (h : s.Inv) {f : Except Stop (List Byte)} (hf : EndsWell (fun _ => True) f) :
    WellKept (runFetched s f) := by
  cases f with
  | error stop => exact EndsWell.finish h hf.stop
  | ok bs =>
    unfold runFetched
    dsimp only
    split
    next i _ => exact exec_wellKept h i
    next => exact h.finishTrap .iopc
    next => exact h.finishTrap .uopc
    next => exact execOther_wellKept h _

theorem afterTriggers_wellKept {s : State} (i : Option Instr) {o : Host.Outcome State Fault Refusal} (ho : WellKept o) :
    WellKept (afterTriggers s i o) := by
  cases o with
  | fault | refused => exact trivial
  | next t =>
    unfold afterTriggers
    dsimp only
    split
    · split
      next => exact ho
      next e _ =>
        have he := endsWell_debugEvent ho e
        split
        next u hu =>
          rw [hu] at he
          exact he
        next stop hu =>
          rw [hu] at he
          exact EndsWell.finish ho he.stop
    · exact ho

theorem executeOne_wellKept {s : State} (h : s.Inv) : WellKept (executeOne s) := by
  have hs := h.spendAsi
  have hf := endsWell_fetch (spendAsi s)
  unfold executeOne
  dsimp only
  generalize spendAsi s = u at *
  split
  next => exact afterTriggers_wellKept _ (runFetched_wellKept hs hf)
  next e _ =>
    have he := endsWell_debugEvent hs e
    split
    next stop hu =>
      rw [hu] at he
      exact EndsWell.finish hs he.stop
    next t hu =>
      rw [hu] at he
      split
      · exact State.Inv.setCompleted he false
      · exact afterTriggers_wellKept _ (runFetched_wellKept he hf)

theorem afterBreakIn_wellKept {s : State} (h : s.Inv) : WellKept (afterBreakIn s) := by
  have hnmi : { s with nmiPending := false }.Inv := { h with }
  have hdae : { s with daePending := false }.Inv := { h with }
  have hfcd : { s with fcdPending := false, syscon := setBit s.syscon 0 true }.Inv :=
    { h with syscon := setBit_and_eq_zero h.syscon (by decide) }
  unfold afterBreakIn
  split
  · exact hnmi.enterTrap 7 0 s.pc
  · split
    · exact hdae.enterTrap 4 3 s.pc
    · split
      · exact hfcd.enterTrap 3 1 s.pc
      · split
        · exact h.takeInterrupt
        · exact executeOne_wellKept h

theorem boundary_wellKept {s : State} (h : s.Inv) : WellKept (boundary s) := by
  have hs := h.sampled
  unfold boundary
  dsimp only
  generalize sampled s = u at *
  split
  · exact hs
  · split
    · have he := endsWell_debugEvent hs (exEvent u)
      split
      next stop hu =>
        rw [hu] at he
        exact EndsWell.finish hs he.stop
      next t hu =>
        rw [hu] at he
        split
        · exact he
        · exact afterBreakIn_wellKept he
    · exact afterBreakIn_wellKept hs

/-- Settles O8: every boundary, event and instruction leaves a well-kept state, operation by operation. -/
theorem stepKeepsTheInvariant : Obligations.StepKeepsTheInvariant := by
  unfold Obligations.StepKeepsTheInvariant
  intro s t h hst
  have hw : WellKept (step s) := boundary_wellKept h
  rw [hst] at hw
  exact hw

end Sys2Proof.Machine
end

section
/-!
PROOFS. The core register map (10_state R33, 11_state_system R90): which register an offset names, what MFCR reads, and what a
written register and the others read as afterwards.
-/
namespace Sys2Proof.Machine

/-! ### Stored and free values -/

/-- The stored value of a core register: what a read gives unless the register is one of an absent MMU (log 41). -/
def csfrStored (s : State) : Csfr → Word
  | .pcxi => s.pcxi | .psw => s.psw | .pc => s.pc | .syscon => s.syscon
  | .cpuId => s.platform.cpuIdMod ++ 0xC0#8 ++ s.platform.cpuIdRev
  | .biv => s.biv | .btv => s.btv | .isp => s.isp | .icr => s.icr | .fcx => s.fcx | .lcx => s.lcx
  | .dprL x n => s.prot[x].dprL[n] | .dprU x n => s.prot[x].dprU[n]
  | .cprL x n => s.prot[x].cprL[n] | .cprU x n => s.prot[x].cprU[n]
  | .dpm x => s.prot[x].dpm | .cpm x => s.prot[x].cpm
  | .mmuCon => s.mmuCon | .mmuAsi => s.mmuAsi | .mmuTva => s.mmuTva | .mmuTpa => s.mmuTpa
  | .mmuTpx => s.mmuTpx | .mmuTfa => s.mmuTfa
  | .dbgsr => s.dbgsr | .exevt => s.exevt | .crevt => s.crevt | .swevt => s.swevt
  | .trEvt n => s.trEvt[n] | .dms => s.dms | .dcx => s.dcx

theorem csfrRead_of_not_free {s : State} {r : Csfr} (h : csfrFree s r = false) : csfrRead s r = csfrStored s r := by
  unfold csfrRead
  rw [h]
  cases r <;> rfl

/-- A read depends on the stored value, on whether there is an MMU, and on the free values used so far. -/
theorem csfrRead_congr {s t : State} {r : Csfr} (hm : mmuNone t.mmuCon = mmuNone s.mmuCon) (hc : t.freeCount = s.freeCount)
    (hr : csfrStored t r = csfrStored s r) : csfrRead t r = csfrRead s r := by
  have hf : csfrFree t r = csfrFree s r := by simp only [csfrFree, hm]
  cases h : csfrFree s r with
  | false => rw [csfrRead_of_not_free h, csfrRead_of_not_free (hf.trans h), hr]
  | true => simp only [csfrRead, hf, h, hc, if_true]

/-- Only the MMU's registers can read as a free value. -/
theorem csfrFree_of_core {r : Csfr} (s : State) (h : (r.isMmu || r = .mmuCon) = false) : csfrFree s r = false := by
  rw [csfrFree, h, Bool.and_false]

theorem csfrFree_of_mmu {s : State} (h : mmuNone s.mmuCon = false) (r : Csfr) : csfrFree s r = false := by
  rw [csfrFree, h, Bool.false_and]

/-! ### The offsets of the indexed registers -/

section offsets

variable (p : Platform) (x n : Fin 4)

theorem csfrOf_trEvt {n : Fin 8} (h : n.val < p.nTriggers) :
    csfrOf p (0xFD20 + BitVec.ofNat 16 (4 * n.val)) = some (.trEvt n) := by
  have : csfrOf p (0xFD20 + BitVec.ofNat 16 (4 * n.val)) = trEvtOf p n := by
    match n with
    | 0 | 1 | 2 | 3 | 4 | 5 | 6 | 7 => rfl
  rw [this, trEvtOf, if_pos h]

variable {p x n}

theorem csfrOf_data (hx : x.val < p.nProtSets) (hn : n.val < p.nDataRanges) :
    csfrOf p (0xC000 + BitVec.ofNat 16 (0x400 * x.val + 8 * n.val)) = some (.dprL x n) ∧
    csfrOf p (0xC004 + BitVec.ofNat 16 (0x400 * x.val + 8 * n.val)) = some (.dprU x n) := by
  have there : (decide (x.val < p.nProtSets) && decide (n.val < p.nDataRanges)) = true := by
    rw [decide_eq_true hx, decide_eq_true hn, Bool.and_true]
  have bounds : csfrOf p (0xC000 + BitVec.ofNat 16 (0x400 * x.val + 8 * n.val)) =
        (if x.val < p.nProtSets && n.val < p.nDataRanges then some (.dprL x n) else none) ∧
      csfrOf p (0xC004 + BitVec.ofNat 16 (0x400 * x.val + 8 * n.val)) =
        if x.val < p.nProtSets && n.val < p.nDataRanges then some (.dprU x n) else none := by
    match x with
    | 0 | 1 | 2 | 3 =>
      match n with
      | 0 | 1 | 2 | 3 => exact ⟨rfl, rfl⟩
  rw [bounds.1, bounds.2, if_pos there, if_pos there]
  exact ⟨rfl, rfl⟩

theorem csfrOf_code (hx : x.val < p.nProtSets) (hn : n.val < p.nCodeRanges) :
    csfrOf p (0xD000 + BitVec.ofNat 16 (0x400 * x.val + 8 * n.val)) = some (.cprL x n) ∧
    csfrOf p (0xD004 + BitVec.ofNat 16 (0x400 * x.val + 8 * n.val)) = some (.cprU x n) := by
  have there : (decide (x.val < p.nProtSets) && decide (n.val < p.nCodeRanges)) = true := by
    rw [decide_eq_true hx, decide_eq_true hn, Bool.and_true]
  have bounds : csfrOf p (0xD000 + BitVec.ofNat 16 (0x400 * x.val + 8 * n.val)) =
        (if x.val < p.nProtSets && n.val < p.nCodeRanges then some (.cprL x n) else none) ∧
      csfrOf p (0xD004 + BitVec.ofNat 16 (0x400 * x.val + 8 * n.val)) =
        if x.val < p.nProtSets && n.val < p.nCodeRanges then some (.cprU x n) else none := by
    match x with
    | 0 | 1 | 2 | 3 =>
      match n with
      | 0 | 1 | 2 | 3 => exact ⟨rfl, rfl⟩
  rw [bounds.1, bounds.2, if_pos there, if_pos there]
  exact ⟨rfl, rfl⟩

theorem csfrOf_mode (hx : x.val < p.nProtSets) :
    csfrOf p (0xE000 + BitVec.ofNat 16 (0x80 * x.val)) = some (.dpm x) ∧
    csfrOf p (0xE200 + BitVec.ofNat 16 (0x80 * x.val)) = some (.cpm x) := by
  have modes : csfrOf p (0xE000 + BitVec.ofNat 16 (0x80 * x.val)) = (if x.val < p.nProtSets then some (.dpm x) else none) ∧
      csfrOf p (0xE200 + BitVec.ofNat 16 (0x80 * x.val)) = if x.val < p.nProtSets then some (.cpm x) else none := by
    match x with
    | 0 | 1 | 2 | 3 => exact ⟨rfl, rfl⟩
  rw [modes.1, modes.2, if_pos hx, if_pos hx]
  exact ⟨rfl, rfl⟩

end offsets

/-! ### MFCR -/

/-- An MFCR whose event has no action ends in the value of its offset, with a free value used up where it is one. -/
theorem exec_mfcr {s : State} {off : BitVec 16} (len : Len) (c : DReg) (h : EventOff s (crEvent s off)) :
    exec (.mfcr len c off) s = finish s (.ok (advance len
      (if (csfrOf s.platform off).any (csfrFree s) then useFree (s.setD c (mfcrValue s off))
       else s.setD c (mfcrValue s off)))) := withEvent_of_off h

/-- MFCR of a stored register. -/
theorem exec_mfcr_stored {s : State} {off : BitVec 16} {r : Csfr} (len : Len) (c : DReg) (ho : csfrOf s.platform off = some r)
    (hf : csfrFree s r = false) (h : EventOff s (crEvent s off)) :
    exec (.mfcr len c off) s =
      .next { s with d := s.d.set c (csfrStored s r), pc := s.pc + lenBytes len, completed := true } := by
  have hv : mfcrValue s off = csfrStored s r := by rw [mfcrValue, ho]; exact csfrRead_of_not_free hf
  rw [exec_mfcr len c h, hv, ho, Option.any_some, hf]
  rfl

/-- MFCR of a register of an absent MMU. -/
theorem exec_mfcr_free {s : State} {off : BitVec 16} {r : Csfr} (len : Len) (c : DReg) (ho : csfrOf s.platform off = some r)
    (hf : csfrFree s r = true) (h : EventOff s (crEvent s off)) :
    exec (.mfcr len c off) s = .next { s with
      d := s.d.set c (mfcrValue s off), freeCount := s.freeCount + 1, pc := s.pc + lenBytes len, completed := true } := by
  rw [exec_mfcr len c h, ho, Option.any_some, hf]
  rfl

/-- MFCR of an offset that names no register. -/
theorem exec_mfcr_none {s : State} {off : BitVec 16} (len : Len) (c : DReg) (ho : csfrOf s.platform off = none)
    (h : EventOff s (crEvent s off)) :
    exec (.mfcr len c off) s = .next { s with d := s.d.set c 0, pc := s.pc + lenBytes len, completed := true } := by
  have hv : mfcrValue s off = 0 := by rw [mfcrValue, ho]
  rw [exec_mfcr len c h, hv, ho]
  rfl

/-- Settles O39: each offset's register, then its stored value, the value 0 of none, or the free value of an absent MMU's. -/
theorem coreRegisterReads : Obligations.CoreRegisterReads := by
  unfold Obligations.CoreRegisterReads
  intro len c s reads
  have core {off : BitVec 16} (r : Csfr) (ho : csfrOf s.platform off = some r) (hr : (r.isMmu || r = .mmuCon) = false) :
      reads off (csfrStored s r) := fun h => exec_mfcr_stored len c ho (csfrFree_of_core s hr) h
  refine ⟨?_, ?_, fun hm => ?_, fun x n hx => ?_, fun off ho h => exec_mfcr_none len c ho h,
    fun off r ho hf h => ⟨_, exec_mfcr_free len c ho hf h⟩⟩
  · exact ⟨core .pcxi rfl rfl, core .psw rfl rfl, core .pc rfl rfl, core .syscon rfl rfl, core .cpuId rfl rfl,
      core .biv rfl rfl, core .btv rfl rfl, core .isp rfl rfl, core .icr rfl rfl, core .fcx rfl rfl, core .lcx rfl rfl⟩
  · exact ⟨core .dbgsr rfl rfl, core .exevt rfl rfl, core .crevt rfl rfl, core .swevt rfl rfl,
      fun n hn => core (.trEvt n) (csfrOf_trEvt s.platform hn) rfl, core .dms rfl rfl, core .dcx rfl rfl⟩
  · have mmu {off : BitVec 16} (r : Csfr) (ho : csfrOf s.platform off = some r) : reads off (csfrStored s r) :=
      fun h => exec_mfcr_stored len c ho (csfrFree_of_mmu hm r) h
    exact ⟨mmu .mmuCon rfl, mmu .mmuAsi rfl, mmu .mmuTva rfl, mmu .mmuTpa rfl, mmu .mmuTpx rfl, mmu .mmuTfa rfl⟩
  · obtain ⟨hpm, hcm⟩ := csfrOf_mode hx
    refine ⟨fun hn => ?_, fun hn => ?_, core (.dpm x) hpm rfl, core (.cpm x) hcm rfl⟩
    · obtain ⟨hl, hu⟩ := csfrOf_data hx hn
      exact ⟨core (.dprL x n) hl rfl, core (.dprU x n) hu rfl⟩
    · obtain ⟨hl, hu⟩ := csfrOf_code hx hn
      exact ⟨core (.cprL x n) hl rfl, core (.cprU x n) hu rfl⟩

/-! ### A written register and the others -/

/-- A write changes neither whether there is an MMU nor the free values used so far. -/
theorem mmuNone_csfrWrite (s : State) (r : Csfr) (v : Word) :
    mmuNone (csfrWrite s r v).mmuCon = mmuNone s.mmuCon ∧ (csfrWrite s r v).freeCount = s.freeCount := by
  cases r with
  | biv | btv | isp | mmuAsi =>
    dsimp only [csfrWrite]
    split <;> exact ⟨rfl, rfl⟩
  | mmuCon =>
    dsimp only [csfrWrite]
    split
    · exact ⟨rfl, rfl⟩
    · exact ⟨by simp [mmuNone, maskedWrite], rfl⟩
  | _ => exact ⟨rfl, rfl⟩

theorem csfrFree_csfrWrite (s : State) (r q : Csfr) (v : Word) : csfrFree (csfrWrite s r v) q = csfrFree s q := by
  simp only [csfrFree, (mmuNone_csfrWrite s r v).1]

/-- A write leaves every other register alone. -/
theorem csfrStored_csfrWrite_other {s : State} {r q : Csfr} (v : Word) (h : q ≠ r) :
    csfrStored (csfrWrite s r v) q = csfrStored s q := by
  cases r with
  | pc | cpuId | mmuTva | mmuTpa | mmuTpx | mmuTfa => rfl
  | dprL x n | dprU x n | cprL x n | cprU x n | dpm x | cpm x =>
    cases q with
    | dprL y k | dprU y k | cprL y k | cprU y k | dpm y | cpm y =>
      simp only [csfrStored, csfrWrite, setProt, getElem_set_fin]
      grind
    | _ => rfl
  | trEvt n =>
    cases q with
    | trEvt k =>
      simp only [csfrStored, csfrWrite, getElem_set_fin]
      grind
    | _ => rfl
  | pcxi => cases q with
    | pcxi => exact absurd rfl h
    | _ => rfl
  | psw => cases q with
    | psw => exact absurd rfl h
    | _ => rfl
  | syscon => cases q with
    | syscon => exact absurd rfl h
    | _ => rfl
  | icr => cases q with
    | icr => exact absurd rfl h
    | _ => rfl
  | fcx => cases q with
    | fcx => exact absurd rfl h
    | _ => rfl
  | lcx => cases q with
    | lcx => exact absurd rfl h
    | _ => rfl
  | dbgsr => cases q with
    | dbgsr => exact absurd rfl h
    | _ => rfl
  | exevt => cases q with
    | exevt => exact absurd rfl h
    | _ => rfl
  | crevt => cases q with
    | crevt => exact absurd rfl h
    | _ => rfl
  | swevt => cases q with
    | swevt => exact absurd rfl h
    | _ => rfl
  | dms => cases q with
    | dms => exact absurd rfl h
    | _ => rfl
  | dcx => cases q with
    | dcx => exact absurd rfl h
    | _ => rfl
  | biv =>
    dsimp only [csfrWrite]
    split
    · rfl
    · cases q with
      | biv => exact absurd rfl h
      | _ => rfl
  | btv =>
    dsimp only [csfrWrite]
    split
    · rfl
    · cases q with
      | btv => exact absurd rfl h
      | _ => rfl
  | isp =>
    dsimp only [csfrWrite]
    split
    · rfl
    · cases q with
      | isp => exact absurd rfl h
      | _ => rfl
  | mmuCon =>
    dsimp only [csfrWrite]
    split
    · rfl
    · cases q with
      | mmuCon => exact absurd rfl h
      | _ => rfl
  | mmuAsi =>
    dsimp only [csfrWrite]
    split
    · rfl
    · cases q with
      | mmuAsi => exact absurd rfl h
      | _ => rfl

/-! #### The register written -/

/-- A register whose other bits are reserved takes the writable bits alone. -/
theorem cut_eq_masked {w v m k : Word} (hw : w &&& k = 0) (hk : ~~~m = k) : v &&& m = (w &&& ~~~m) ||| (v &&& m) := by
  rw [hk, hw]
  exact BitVec.zero_or.symm

/-- A write of no bit. -/
theorem masked_none (w v : Word) : w = (w &&& ~~~(0 : Word)) ||| (v &&& 0) := by
  have h : ~~~(0 : Word) = BitVec.allOnes 32 := by decide
  rw [h, BitVec.and_allOnes]
  simp

/-- A write of every bit. -/
theorem masked_all (w v : Word) : v = (w &&& ~~~(0xFFFFFFFF : Word)) ||| (v &&& 0xFFFFFFFF) := by
  have h1 : ~~~(0xFFFFFFFF : Word) = 0#32 := by decide
  have h2 : (0xFFFFFFFF : Word) = BitVec.allOnes 32 := by decide
  rw [h1, h2, BitVec.and_allOnes, BitVec.and_zero, BitVec.zero_or]

/-- A register of a well-kept state takes the bits of its mask and keeps the others. -/
theorem csfrStored_csfrWrite_same {s : State} (h : s.Inv) {r : Csfr} (v : Word) (hf : csfrFree s r = false) (hr : r ≠ .dbgsr) :
    csfrStored (csfrWrite s r v) r = (csfrStored s r &&& ~~~csfrMask s r) ||| (v &&& csfrMask s r) := by
  obtain ⟨hex, hcr, hsw⟩ := h.events
  cases r with
  | dbgsr => exact absurd rfl hr
  | pc | cpuId | mmuTva | mmuTpa | mmuTpx | mmuTfa => exact masked_none _ v
  | pcxi => exact cut_eq_masked h.pcxi (by decide)
  | psw => exact cut_eq_masked h.psw (by decide)
  | syscon => exact cut_eq_masked h.syscon (by decide)
  | icr => rfl
  | fcx => exact cut_eq_masked h.fcx (by decide)
  | lcx => exact cut_eq_masked h.lcx (by decide)
  | biv =>
    dsimp only [csfrWrite, csfrMask]
    split
    · exact masked_none _ v
    · exact cut_eq_masked h.biv (by decide)
  | btv =>
    dsimp only [csfrWrite, csfrMask]
    split
    · exact masked_none _ v
    · exact cut_eq_masked h.btv (by decide)
  | isp =>
    dsimp only [csfrWrite, csfrMask]
    split
    · exact masked_none _ v
    · exact masked_all _ v
  | mmuCon =>
    have hm : mmuNone s.mmuCon = false := by simpa [csfrFree] using hf
    simp only [csfrWrite, hm, Bool.false_eq_true, if_false]
    rfl
  | mmuAsi =>
    have hm : mmuNone s.mmuCon = false := by simpa [csfrFree, Csfr.isMmu] using hf
    simp only [csfrWrite, hm, Bool.false_eq_true, if_false]
    exact cut_eq_masked h.mmuAsi (by decide)
  | dprL x n | dprU x n | dpm x =>
    simp only [csfrStored, csfrWrite, setProt, getElem_set_fin, if_true]
    exact masked_all _ v
  | cprL x n =>
    simp only [csfrStored, csfrWrite, setProt, getElem_set_fin, if_true]
    exact cut_eq_masked (h.cpr x n).1 (by decide)
  | cprU x n =>
    simp only [csfrStored, csfrWrite, setProt, getElem_set_fin, if_true]
    exact cut_eq_masked (h.cpr x n).2 (by decide)
  | cpm x =>
    simp only [csfrStored, csfrWrite, setProt, getElem_set_fin, if_true]
    exact cut_eq_masked (h.cpm x) (by decide)
  | exevt => exact cut_eq_masked hex (by decide)
  | crevt => exact cut_eq_masked hcr (by decide)
  | swevt => exact cut_eq_masked hsw (by decide)
  | trEvt n =>
    simp only [csfrStored, csfrWrite, getElem_set_fin, if_true]
    exact cut_eq_masked (h.triggers n) (by decide)
  | dms => exact cut_eq_masked h.dms (by decide)
  | dcx => exact cut_eq_masked h.dcx (by decide)

/-- DBGSR after a write, bit by bit: HALT[0] by its own rule, the others by the mask (11 R92). -/
theorem getLsbD_writeDbgsr (w v : Word) (j : Nat) :
    (writeDbgsr w v).getLsbD j =
      if j = 1 then (if v.getLsbD 2 then (if v.getLsbD 1 then dbgHalted w || dbgDe w else false) else dbgHalted w)
      else (maskedWrite w 0x00000090 v).getLsbD j := by
  unfold writeDbgsr dbgHalted
  dsimp only
  by_cases hj : j = 1
  · have h1 : (maskedWrite w 0x00000090 v).getLsbD 1 = w.getLsbD 1 := by simp [maskedWrite]
    have hb (b : Bool) : (setBit (maskedWrite w 0x00000090 v) 1 b).getLsbD 1 = b := by
      rw [getLsbD_setBit, if_pos rfl]; rfl
    subst hj
    cases v.getLsbD 2 <;> cases v.getLsbD 1 <;> cases dbgDe w <;>
      simp only [hb, h1, if_true, if_false, Bool.false_eq_true, Bool.or_true, Bool.or_false]
  · have hb (b : Bool) : (setBit (maskedWrite w 0x00000090 v) 1 b).getLsbD j = (maskedWrite w 0x00000090 v).getLsbD j := by
      rw [getLsbD_setBit, if_neg hj]
    cases v.getLsbD 2 <;> cases v.getLsbD 1 <;> cases dbgDe w <;>
      simp only [hb, hj, if_true, if_false, Bool.false_eq_true]

/-- Settles O41: the mask of the register written, DBGSR's own rule, and the registers beside it. -/
theorem coreRegistersReadBack : Obligations.CoreRegistersReadBack := by
  unfold Obligations.CoreRegistersReadBack
  intro off r v s h _ hf
  have read : csfrRead (csfrWrite s r v) r = csfrStored (csfrWrite s r v) r :=
    csfrRead_of_not_free ((csfrFree_csfrWrite s r r v).trans hf)
  refine ⟨fun hr => ?_, fun hr => ?_, fun q hq => ?_⟩
  · rw [read, csfrRead_of_not_free hf]
    exact csfrStored_csfrWrite_same h v hf hr
  · subst hr
    have hw : csfrStored (csfrWrite s .dbgsr v) .dbgsr = writeDbgsr s.dbgsr v := rfl
    constructor
    · rw [read, hw]
      apply BitVec.eq_of_getLsbD_eq
      intro j hj
      have masks : (0xFFFFFFFD : Word).getLsbD j = decide (j ≠ 1) ∧
          (0xFFFFFF6D : Word).getLsbD j = (decide (j ≠ 1) && !(0x00000090 : Word).getLsbD j) := by
        revert j; decide
      obtain ⟨m1, m2⟩ := masks
      rw [BitVec.getLsbD_and, BitVec.getLsbD_or, BitVec.getLsbD_and, BitVec.getLsbD_and, getLsbD_writeDbgsr, m1, m2]
      by_cases hj1 : j = 1
      · simp [hj1]
      · simp only [hj1, maskedWrite, BitVec.getLsbD_and, BitVec.getLsbD_or, BitVec.getLsbD_not, hj, if_false, ne_eq,
          not_false_eq_true, decide_true, Bool.true_and, Bool.and_true]
    · show (writeDbgsr s.dbgsr v).getLsbD 1 = _
      rw [getLsbD_writeDbgsr, if_pos rfl]
  · obtain ⟨hm, hc⟩ := mmuNone_csfrWrite s r v
    exact csfrRead_congr hm hc (csfrStored_csfrWrite_other v hq)

end Sys2Proof.Machine
end

section
/-!
PROOFS. A service request node through its SRC (10_state R36, R60 to R63): what a load of its four bytes reads, what a store
writes, and what a request from outside does.
-/
namespace Sys2Proof.Machine

/-! ### The bytes of a node -/

theorem addr_add_sub_self (a x : Word) : a + x - a = x := by rw [BitVec.add_comm, BitVec.add_sub_cancel]

/-- The four bytes from an address are those less than four above it. -/
theorem mem_addrs_four {a pa : Word} : pa ∈ addrs a 4 ↔ (pa - a).toNat < 4 := by
  simp only [addrs, List.mem_map, List.mem_range]
  constructor
  · rintro ⟨j, hj, rfl⟩
    rw [addr_add_sub_self, BitVec.toNat_ofNat]
    omega
  · intro h
    exact ⟨_, h, by rw [BitVec.ofNat_toNat, BitVec.setWidth_eq, BitVec.add_comm, BitVec.sub_add_cancel]⟩

/-- A byte of a node that stands alone belongs to that node. -/
theorem nodeAt_of_alone {s : State} {k : Nat} (hk : (getNode s k).isSome = true) (ha : NodeAlone s k) {pa : Word}
    (hpa : pa ∈ addrs (nodeAddr s k) 4) : nodeAt s pa = some k := by
  obtain ⟨n, hn⟩ := Option.isSome_iff_exists.mp hk
  have own : ((getNode s k).isSome && decide ((pa - nodeAddr s k).toNat < 4)) = true := by
    rw [hk, Bool.true_and, decide_eq_true_eq]
    exact mem_addrs_four.mp hpa
  unfold nodeAt
  cases hf : (List.range (nodeCount s)).find? fun j => (getNode s j).isSome && decide ((pa - nodeAddr s j).toNat < 4) with
  | none => exact absurd own (List.find?_eq_none.mp hf k (List.mem_range.mpr (getNode_lt hn)))
  | some j =>
    have hj := List.find?_some hf
    rw [Bool.and_eq_true, decide_eq_true_eq] at hj
    by_cases e : j = k
    · rw [e]
    · have := ha.others j e hj.1 pa hpa
      omega

/-- No byte of a node is a device's. -/
theorem any_isDevice_node {s : State} {k : Nat} (hk : (getNode s k).isSome = true) (ha : NodeAlone s k) :
    (addrs (nodeAddr s k) 4).any (isDevice s) = false := by
  rw [List.any_eq_false]
  intro pa hpa
  simp [isDevice, nodeAt_of_alone hk ha hpa]

/-- A read of a node's four bytes gives its SRC and changes nothing. -/
theorem physRead_node {s : State} {k : Nat} {n : Src} (hk : getNode s k = some n) (ha : NodeAlone s k) :
    physRead s (addrs (nodeAddr s k) 4) = (wordBytes n.word, s) := by
  have hks : (getNode s k).isSome = true := by simp [hk]
  have byte (j : Nat) (hj : j < 4) (i : Nat) :
      readByteAt s (nodeAddr s k + BitVec.ofNat 32 j) i = n.word.extractLsb' (8 * j) 8 := by
    have hmem : nodeAddr s k + BitVec.ofNat 32 j ∈ addrs (nodeAddr s k) 4 :=
      List.mem_map.mpr ⟨j, List.mem_range.mpr hj, rfl⟩
    have hoff : (nodeAddr s k + BitVec.ofNat 32 j - nodeAddr s k).toNat = j := by
      rw [addr_add_sub_self, BitVec.toNat_ofNat]
      omega
    simp only [readByteAt, nodeAt_of_alone hks ha hmem, hk, Option.bind_some, Option.map_some, hoff]
  have bytes : ((addrs (nodeAddr s k) 4).zip (List.range (addrs (nodeAddr s k) 4).length)).map
      (fun p => readByteAt s p.1 p.2) = wordBytes n.word := by
    show [readByteAt s (nodeAddr s k + BitVec.ofNat 32 0) 0, readByteAt s (nodeAddr s k + BitVec.ofNat 32 1) 1,
      readByteAt s (nodeAddr s k + BitVec.ofNat 32 2) 2, readByteAt s (nodeAddr s k + BitVec.ofNat 32 3) 3] = _
    rw [byte 0 (by decide), byte 1 (by decide), byte 2 (by decide), byte 3 (by decide)]
    rfl
  simp only [physRead, any_isDevice_node hks ha, bytes]
  rfl

/-- The fields of an SRC as it reads (10_state R61). -/
theorem Src.word_fields (n : Src) :
    n.word.extractLsb' 14 18 = 0 ∧ n.word.getLsbD 13 = n.srr ∧ n.word.getLsbD 12 = n.sre ∧ n.word.extractLsb' 10 2 = n.tos ∧
    n.word.extractLsb' 8 2 = 0 ∧ n.word.extractLsb' 0 8 = n.srpn := by
  have bit (i : Nat) : n.word.getLsbD i =
      if i < 8 then n.srpn.getLsbD i else if i < 10 then false else if i < 12 then n.tos.getLsbD (i - 10)
      else if i = 12 then n.sre else if i = 13 then n.srr else false := by
    simp only [Src.word, BitVec.getLsbD_append]
    grind
  refine ⟨?_, ?_, ?_, ?_, ?_, ?_⟩
  case refine_2 | refine_3 => rw [bit]; rfl
  all_goals
    apply BitVec.eq_of_getLsbD_eq
    intro i hi
    rw [BitVec.getLsbD_extractLsb', bit]
  · grind
  · grind
  · grind
  · grind

/-! ### A store to a node -/

theorem nodeAddr_setNode (s : State) (k j : Nat) (n : Src) : nodeAddr (setNode s k n) j = nodeAddr s j := by
  rw [setNode_eq]; rfl

/-- The byte a store to a node's four bytes gives byte `j` of that node. -/
theorem lane_own (s : State) (k : Nat) (v : Word) {j : Nat} (hj : j < 4) :
    lane ((addrs (nodeAddr s k) 4).zip (wordBytes v)) s k j = some (v.extractLsb' (8 * j) 8) := by
  have key (i : Nat) (hi : i < 4) :
      (nodeAddr s k + BitVec.ofNat 32 j == nodeAddr s k + BitVec.ofNat 32 i) = decide (j = i) := by
    rw [Bool.eq_iff_iff, beq_iff_eq, decide_eq_true_eq, BitVec.add_right_inj, ← BitVec.toNat_inj, BitVec.toNat_ofNat,
      BitVec.toNat_ofNat]
    omega
  show ([(nodeAddr s k + BitVec.ofNat 32 0, v.extractLsb' 0 8), (nodeAddr s k + BitVec.ofNat 32 1, v.extractLsb' 8 8),
    (nodeAddr s k + BitVec.ofNat 32 2, v.extractLsb' 16 8), (nodeAddr s k + BitVec.ofNat 32 3, v.extractLsb' 24 8)]).lookup
      (nodeAddr s k + BitVec.ofNat 32 j) = _
  simp only [List.lookup, key 0 (by decide), key 1 (by decide), key 2 (by decide), key 3 (by decide)]
  match j, hj with
  | 0, _ | 1, _ | 2, _ | 3, _ => rfl

/-- A store to a node that stands alone gives no byte to another node. -/
theorem lane_other {s : State} {k i : Nat} (ha : NodeAlone s k) (hi : i ≠ k) (hs : (getNode s i).isSome = true) (bs : List Byte)
    {j : Nat} (hj : j < 4) : lane ((addrs (nodeAddr s k) 4).zip bs) s i j = none := by
  rw [lane, List.lookup_eq_none_iff]
  intro p hp
  have := ha.others i hi hs p.1 (List.of_mem_zip hp).1
  rw [bne_iff_ne]
  intro e
  rw [← e, addr_add_sub_self, BitVec.toNat_ofNat] at this
  omega

/-- A fold whose function changes the state at one element only. -/
theorem foldl_of_single {α β : Type} {f : β → α → β} {a : α} {s t : β} (ht : f s a = t) :
    ∀ {l : List α}, l.Nodup → a ∈ l → (∀ b, b ≠ a → f s b = s) → (∀ b, b ≠ a → f t b = t) → l.foldl f s = t
  | b :: l, hn, hm, hs, hf => by
    rw [List.nodup_cons] at hn
    rw [List.foldl_cons]
    by_cases e : b = a
    · subst e
      rw [ht]
      have rest (l : List α) (hb : b ∉ l) : l.foldl f t = t := by
        induction l with
        | nil => rfl
        | cons c l ih =>
          rw [List.mem_cons, not_or] at hb
          rw [List.foldl_cons, hf c (Ne.symm hb.1), ih hb.2]
      exact rest l hn.1
    · rw [hs b e]
      exact foldl_of_single ht hn.2 ((List.mem_cons.mp hm).resolve_left (Ne.symm e)) hs hf

/-- A store to a node that stands alone leaves the other nodes as they are, in whatever state it finds them. -/
theorem writeNode_other {s t : State} {k i : Nat} (ha : NodeAlone s k) (bs : List Byte) (hp : nodeAddr t i = nodeAddr s i)
    (hg : getNode t i = getNode s i) (hi : i ≠ k) : writeNode ((addrs (nodeAddr s k) 4).zip bs) t i = t := by
  unfold writeNode
  split
  next => rfl
  next r hr =>
    have hs : (getNode s i).isSome = true := by rw [← hg, hr]; rfl
    have uncovered (j : Nat) (hj : j < 4) : lane ((addrs (nodeAddr s k) 4).zip bs) t i j = none := by
      rw [← lane_other ha hi hs bs hj, lane, lane, hp]
    rw [if_neg]
    rw [Bool.not_eq_true, List.any_eq_false]
    intro j hj
    simp [uncovered j (List.mem_range.mp hj)]

/-- A store of a word to a node's four bytes is the write of its SRC. -/
theorem writeNode_own {s : State} {k : Nat} {n : Src} (hk : getNode s k = some n) (v : Word) :
    writeNode ((addrs (nodeAddr s k) 4).zip (wordBytes v)) s k = setNode s k (n.write v) := by
  have lanes : (List.range 4).map (fun j => (lane ((addrs (nodeAddr s k) 4).zip (wordBytes v)) s k j).getD
      (n.word.extractLsb' (8 * j) 8)) = wordBytes v := by
    calc _ = (List.range 4).map fun j => v.extractLsb' (8 * j) 8 :=
          List.map_congr_left fun j hj => by rw [lane_own s k v (List.mem_range.mp hj)]; rfl
      _ = wordBytes v := rfl
  have word : wordOf (wordBytes v) = v := by simpa using wordOf_wordBytes v []
  have covered : ((List.range 4).any fun j => (lane ((addrs (nodeAddr s k) 4).zip (wordBytes v)) s k j).isSome) = true :=
    List.any_eq_true.mpr ⟨0, by decide, by rw [lane_own s k v (by decide)]; rfl⟩
  simp only [writeNode, hk, covered, lanes, word, if_true]

/-- No byte of a node is memory, so a store there writes none. -/
theorem writeMemory_node {s : State} {k : Nat} (hk : (getNode s k).isSome = true) (ha : NodeAlone s k) (bs : List Byte) :
    writeMemory s (addrs (nodeAddr s k) 4) bs = s := by
  have : ((addrs (nodeAddr s k) 4).zip bs).filter (fun p => plainMemory s p.1) = [] := by
    rw [List.filter_eq_nil_iff]
    intro p hp
    simp [plainMemory, nodeAt_of_alone hk ha (List.of_mem_zip hp).1]
  rw [writeMemory, this]
  rfl

/-- A store of a word to a node's four bytes writes that node alone. -/
theorem writeNodes_node {s : State} {k : Nat} {n : Src} (hk : getNode s k = some n) (ha : NodeAlone s k) (v : Word) :
    writeNodes s (addrs (nodeAddr s k) 4) (wordBytes v) s = setNode s k (n.write v) := by
  have hks : (getNode s k).isSome = true := by simp [hk]
  have first : nodeAddr s k + BitVec.ofNat 32 0 ∈ addrs (nodeAddr s k) 4 := List.mem_map.mpr ⟨0, by decide, rfl⟩
  have hit : (addrs (nodeAddr s k) 4).any (fun pa => (nodeAt s pa).isSome) = true :=
    List.any_eq_true.mpr ⟨_, first, by rw [nodeAt_of_alone hks ha first]; rfl⟩
  have sel : ((addrs (nodeAddr s k) 4).zip (wordBytes v)).filter (fun p => !busError s p.1) =
      (addrs (nodeAddr s k) 4).zip (wordBytes v) := by
    rw [List.filter_eq_self]
    intro p hp
    rw [ha.bus p.1 (List.of_mem_zip hp).1]
    rfl
  rw [writeNodes, if_pos hit, sel]
  refine foldl_of_single (writeNode_own hk v) List.nodup_range (List.mem_range.mpr (getNode_lt hk)) (fun i hi => ?_) fun i hi => ?_
  · exact writeNode_other ha _ rfl rfl hi
  · exact writeNode_other ha _ (nodeAddr_setNode s k i _) (by rw [getNode_setNode _ _ hks, if_neg hi]) hi

/-- A store of a word to a node's four bytes changes nothing but that node. -/
theorem physWrite_node {s : State} {k : Nat} {n : Src} (hk : getNode s k = some n) (ha : NodeAlone s k) (v : Word) :
    physWrite s (addrs (nodeAddr s k) 4) (wordBytes v) = setNode s k (n.write v) := by
  have hks : (getNode s k).isSome = true := by simp [hk]
  have bus : (addrs (nodeAddr s k) 4).any (busError s) = false := by
    rw [List.any_eq_false]
    intro pa hpa
    simp [ha.bus pa hpa]
  simp only [physWrite, writeMemory_node hks ha, writeNodes_node hk ha, writeDevice, any_isDevice_node hks ha, writeError, bus,
    Bool.or_false, Bool.false_eq_true, if_false]

/-- A write of an SRC (10_state R61). -/
theorem Src.write_fields (n : Src) (w : Word) :
    (n.write w).sre = w.getLsbD 12 ∧ (n.write w).tos = w.extractLsb' 10 2 ∧ (n.write w).srpn = w.extractLsb' 0 8 ∧
    (w.getLsbD 15 = true → w.getLsbD 14 = false → (n.write w).srr = true) ∧
    (w.getLsbD 15 = false → w.getLsbD 14 = true → (n.write w).srr = false) ∧
    (w.getLsbD 15 = w.getLsbD 14 → (n.write w).srr = n.srr) := by
  refine ⟨rfl, rfl, rfl, fun h1 h0 => ?_, fun h1 h0 => ?_, fun h => ?_⟩
  · simp only [Src.write, h1, h0]; rfl
  · simp only [Src.write, h1, h0]; rfl
  · cases h0 : w.getLsbD 14 <;> simp only [Src.write, h, h0] <;> rfl

/-! ### The instructions and the environment -/

/-- An update of address registers and an end of an instruction leave the nodes alone. -/
theorem getNode_ended (s : State) (u : Option (Fin 16 × Word)) (len : Len) (j : Nat) :
    getNode { advance len (applyUpdate s u) with completed := true } j = getNode s j := by
  rw [applyUpdate_eq]
  rfl

/-- LD.W of a node's four bytes loads its SRC. -/
theorem exec_ldW_node {s : State} {k : Nat} {n : Src} {m : Mode} (len : Len) (a : DReg) (hm : ModeOk s m)
    (hk : getNode s k = some n) (he : accessAddrs s m 4 = addrs (nodeAddr s k) 4) (ha : NodeAlone s k)
    (hx : AccessOk s m (.load 4 2)) : exec (.ldW len a m) s = .next { applyUpdate s (modeUpdate s m) with
      d := s.d.set a n.word, pc := s.pc + lenBytes len, completed := true } := by
  have hl := (loadShape_eq_ok len m (.load 4 2) false false (fun bs t => t.setD a (wordOf bs)) s _).mpr
    ⟨rfl, nofun, hm, hx, rfl⟩
  have hb : physRead s (accessAddrs s m (AccessKind.load 4 2).size) = (wordBytes n.word, s) :=
    (congrArg (physRead s) he).trans (physRead_node hk ha)
  have word : wordOf (wordBytes n.word) = n.word := by simpa using wordOf_wordBytes n.word []
  rw [hb, word] at hl
  show finish s (loadShape len m (.load 4 2) false false (fun bs t => t.setD a (wordOf bs)) s) = _
  rw [hl, applyUpdate_eq]
  rfl

/-- ST.W to a node's four bytes writes its SRC. -/
theorem exec_stW_node {s : State} {k : Nat} {n : Src} {m : Mode} (len : Len) (a : DReg) (hm : ModeOk s m)
    (hk : getNode s k = some n) (he : accessAddrs s m 4 = addrs (nodeAddr s k) 4) (ha : NodeAlone s k)
    (hx : AccessOk s m (.store 4 2)) : exec (.stW len a m) s = .next
      { advance len (applyUpdate (setNode s k (n.write (s.dr a))) (modeUpdate s m)) with completed := true } := by
  have hs := (storeShape_eq_ok len m (.store 4 2) false (wordBytes (s.dr a)) s _).mpr ⟨rfl, hm, hx, rfl⟩
  have hb : physWrite s (accessAddrs s m (AccessKind.store 4 2).size) (wordBytes (s.dr a)) = setNode s k (n.write (s.dr a)) :=
    (congrArg (physWrite s · _) he).trans (physWrite_node hk ha (s.dr a))
  rw [hb] at hs
  show finish s (storeShape len m (.store 4 2) false (wordBytes (s.dr a)) s) = _
  rw [hs]
  rfl

/-- A boundary with one event leaves the nodes as that event does. -/
theorem getNode_sampled {s : State} {e : InputEvent} (he : eventsNow s = [e]) (j : Nat) :
    getNode (sampled s) j = getNode (applyEvent { s with inputs := s.inputs.tail } e) j := by
  unfold sampled applyInputs
  rw [he]
  rfl

/-- A request set or cleared from outside changes SRR of the node named and no other. -/
theorem getNode_setSrr {s : State} {k : Nat} {n : Src} (b : Bool) (hk : getNode s k = some n) (j : Nat) :
    getNode (setSrr b s k) j = if j = k then some { n with srr := b } else getNode s j := by
  rw [setSrr, hk]
  exact getNode_setNode _ j (by simp [hk])

/-- Settles O27: the four bytes of the node as a load and a store see them, and the request events at a boundary. -/
theorem serviceRequestNodes : Obligations.ServiceRequestNodes := by
  unfold Obligations.ServiceRequestNodes
  refine ⟨fun len a m s k n hm hk he ha => ⟨fun hx => ?_, fun hx => ?_⟩, fun s k n b hk he => ?_⟩
  · exact ⟨n.word, exec_ldW_node len a hm hk he ha hx, n.word_fields⟩
  · refine ⟨_, exec_stW_node len a hm hk he ha hx, ⟨n.write (s.dr a), ?_, n.write_fields (s.dr a)⟩, fun j hj => ?_, ?_⟩
    · rw [getNode_ended, getNode_setNode _ _ (by simp [hk]), if_pos rfl]
    · rw [getNode_ended, getNode_setNode _ _ (by simp [hk]), if_neg hj]
    · rw [setNode_eq, applyUpdate_eq, applyUpdate_eq]
      cases modeUpdate s m <;> rfl
  · cases b with
    | false =>
      have after (j : Nat) : getNode (sampled s) j = if j = k then some { n with srr := false } else getNode s j :=
        (getNode_sampled he j).trans (getNode_setSrr (s := { s with inputs := s.inputs.tail }) false hk j)
      exact ⟨nofun, fun _ => by rw [after, if_pos rfl], fun j hj => by rw [after, if_neg hj]⟩
    | true =>
      by_cases h4 : k < 4
      · have after (j : Nat) : getNode (sampled s) j = getNode s j := by
          rw [getNode_sampled he, if_pos rfl, applyEvent, if_pos h4]
          rfl
        exact ⟨fun _ _ => (after k).trans hk, fun h => absurd h (by simp [h4]), fun j _ => after j⟩
      · have after (j : Nat) : getNode (sampled s) j = if j = k then some { n with srr := true } else getNode s j := by
          rw [getNode_sampled he, if_pos rfl, applyEvent, if_neg h4]
          exact getNode_setSrr (s := { s with inputs := s.inputs.tail }) true hk j
        exact ⟨fun _ h => absurd h h4, fun _ => by rw [after, if_pos rfl], fun j hj => by rw [after, if_neg hj]⟩

end Sys2Proof.Machine
end

section
/-!
PROOFS. The traps of range protection and translation on a data access (21 R203 to R209, R240 to R245): what each test of
20_memory R175 steps 4 and 5 asks, then the first trap of the checks, then that trap as the outcome of the instruction.
-/
namespace Sys2Proof.Machine

/-! ### What the tests ask -/

/-- An address has no physical address exactly where it needs a TTE and none is there (21 R242). -/
theorem physOf_isNone {s : State} {va : Word} :
    (physOf s va).isNone = true ↔ usesPte s va = true ∧ lookupTte s va = none := by
  cases hu : usesPte s va <;> simp [physOf, hu]

theorem pteDenies_eq_true {s : State} {va : Word} {x r w : Bool} :
    pteDenies s va x r w = true ↔ usesPte s va = true ∧ ∃ t, lookupTte s va = some t ∧
      (x = true ∧ t.xe = false ∨ r = true ∧ t.re = false ∨ w = true ∧ t.we = false) := by
  cases ht : lookupTte s va <;> simp [pteDenies, ht, or_assoc]

theorem upperDenied_eq_true {s : State} {va : Word} :
    upperDenied s va = true ↔
      virtualMode s = true ∧ va.getLsbD 31 = true ∧ isUser0 s = true ∧ attrOf s va ≠ .peripheral := by
  simp [upperDenied, hasP, and_assoc]

/-- With PROTEN = 1 the range protection is asked about the directly translated addresses that are neither peripheral nor
emulator space (21 R206, R208, R209). -/
theorem headChecked_eq_true {s : State} (hp : sysProten s.syscon = true) {a : Word} :
    headChecked s a = true ↔ usesPte s a = false ∧ attrOf s a ≠ .peripheral ∧ attrOf s a ≠ .emulator := by
  simp [headChecked, rangeChecked, hp]

/-- Some data range of the implementation holds the address and has bit `k` of its mode byte set (21 R203, R204). -/
def DataRangeAllows (s : State) (k : Nat) (a : Word) : Prop :=
  ∃ n : Fin 4, n.val < s.platform.nDataRanges ∧ (protSet s).dprL[n] ≤ a ∧ a < (protSet s).dprU[n] ∧
    (protSet s).dpm.getLsbD (8 * n.val + k) = true

theorem dataRanges_any {s : State} {k : Nat} {a : Word} :
    ((dataRanges s).any fun n => inData (protSet s) n a && modeBit (protSet s).dpm n k) = true ↔ DataRangeAllows s k a := by
  simp [dataRanges, inData, modeBit, DataRangeAllows, and_assoc]

theorem readOk_eq_true {s : State} {a : Word} : readOk s a = true ↔ DataRangeAllows s 6 a := dataRanges_any

theorem writeOk_eq_true {s : State} {a : Word} : writeOk s a = true ↔ DataRangeAllows s 7 a := dataRanges_any

/-! ### The first trap of the checks -/

/-- An address without a TTE is VAF at the effective address, before any other check of the translation (60 R720). -/
theorem translateAll_vaf {s : State} {va : Word} {vas : List Word} (ea : Word) (x r w : Bool) (hva : va ∈ vas)
    (hu : usesPte s va = true) (hl : lookupTte s va = none) :
    translateAll s ea vas x r w = .error (.trap (.vaf ea)) := by
  have unmapped : (vas.any fun va => (physOf s va).isNone) = true :=
    List.any_eq_true.mpr ⟨va, hva, physOf_isNone.mpr ⟨hu, hl⟩⟩
  rw [translateAll, unmapped]
  rfl

/-- Where every address is mapped, one that its TTE or the User-0 rule denies is VAP at the effective address. -/
theorem translateAll_vap {s : State} {va : Word} {vas : List Word} (ea : Word) {x r w : Bool}
    (hm : ∀ va ∈ vas, usesPte s va = true → lookupTte s va ≠ none) (hva : va ∈ vas)
    (hd : pteDenies s va x r w = true ∨ upperDenied s va = true) :
    translateAll s ea vas x r w = .error (.trap (.vap ea)) := by
  have mapped : (vas.any fun va => (physOf s va).isNone) = false :=
    List.any_eq_false.mpr fun b hb hn => hm b hb (physOf_isNone.mp hn).1 (physOf_isNone.mp hn).2
  have denied : (vas.any fun va => pteDenies s va x r w || upperDenied s va) = true :=
    List.any_eq_true.mpr ⟨va, hva, (Bool.or_eq_true _ _).mpr hd⟩
  rw [translateAll, mapped, denied]
  rfl

section checks
variable {s : State} {m : Mode} {kind : AccessKind} {a : Word}

/-- Steps 1 to 3 of R175 let an access pass whose address is in order. -/
theorem AddressOk.guards (ha : AddressOk s m kind) :
    memTrap s m kind.size = false ∧
    (circMisaligned s m kind.size || decide ((modeEa s m).toNat % alignOf s kind (modeEa s m) ≠ 0)) = false ∧
    decide (modeEa s m = 0) = false :=
  ⟨ha.segment, by simp [ha.circular, ha.aligned], decide_eq_false ha.nonzero⟩

theorem translateAll_of_translationOk (ht : TranslationOk s m kind) :
    translateAll s (modeEa s m) (modeBytes s m kind.size) false kind.reads kind.writes = .ok (accessAddrs s m kind.size) :=
  (translateAll_eq_ok ..).mpr ⟨ht.mapped, ht.permitted, ht.page, rfl⟩

/-- The checks of an access whose address is in order stop where its translation does. -/
theorem checkData_of_translateAll {e : Stop} (ha : AddressOk s m kind)
    (ht : translateAll s (modeEa s m) (modeBytes s m kind.size) false kind.reads kind.writes = .error e) :
    checkData s m kind = .error e := by
  obtain ⟨segment, alignment, nonzero⟩ := ha.guards
  simp only [checkData, segment, alignment, nonzero, raiseIf_false, ok_bind, ht, error_bind]

/-- A translated access whose protection set is there, with a checked address that no range lets it read: MPR. -/
theorem checkData_mpr (ha : AddressOk s m kind) (ht : TranslationOk s m kind) (hs : protSetMissing s = false)
    (hr : kind.readRange = true) (hm : a ∈ modeHeads s m kind.size) (hc : headChecked s a = true) (hd : readOk s a = false) :
    checkData s m kind = .error (.trap .mpr) := by
  obtain ⟨segment, alignment, nonzero⟩ := ha.guards
  have unreadable : (kind.readRange && (modeHeads s m kind.size).any fun a => headChecked s a && !readOk s a) = true := by
    rw [hr]
    exact List.any_eq_true.mpr ⟨a, hm, by rw [hc, hd]; rfl⟩
  simp only [checkData, segment, alignment, nonzero, translateAll_of_translationOk ht, hs, Bool.and_false, unreadable,
    raiseIf_false, raiseIf_true, stopIf_false, ok_bind, error_bind]

/-- The same where no MPR stops it, with a checked address that no range lets it write: MPW. -/
theorem checkData_mpw (ha : AddressOk s m kind) (ht : TranslationOk s m kind) (hs : protSetMissing s = false)
    (hr : kind.readRange = true → ∀ a ∈ modeHeads s m kind.size, headChecked s a = true → readOk s a = true)
    (hw : kind.writes = true) (hm : a ∈ modeHeads s m kind.size) (hc : headChecked s a = true) (hd : writeOk s a = false) :
    checkData s m kind = .error (.trap .mpw) := by
  obtain ⟨segment, alignment, nonzero⟩ := ha.guards
  have readable : (kind.readRange && (modeHeads s m kind.size).any fun a => headChecked s a && !readOk s a) = false := by
    cases hk : kind.readRange with
    | false => rfl
    | true => exact List.any_eq_false.mpr fun a hm => by simpa using hr hk a hm
  have unwritable : (kind.writes && (modeHeads s m kind.size).any fun a => headChecked s a && !writeOk s a) = true := by
    rw [hw]
    exact List.any_eq_true.mpr ⟨a, hm, by rw [hc, hd]; rfl⟩
  simp only [checkData, segment, alignment, nonzero, translateAll_of_translationOk ht, hs, Bool.and_false, readable,
    unwritable, raiseIf_false, raiseIf_true, stopIf_false, ok_bind, error_bind]

end checks

/-! ### The instructions -/

/-- An instruction whose registers are in order takes the trap that the checks of its data access raise. -/
theorem exec_of_checkData_trap {i : Instr} {x : DataAccess} {s : State} (t : Trap) (hx : dataAccess i = some x)
    (hr : RegistersOk s x) (hc : checkData s x.mode x.kind = .error (.trap t)) : exec i s = .next (takeTrap t s) := by
  obtain ⟨f, he, -⟩ := exec_dataAccess i x s hx
  have pairs : opd (x.odd || modeOddPair x.mode) = .ok () := by simp [hr.pair, hr.mode.even]
  have globals : grwp s (x.global || modeWritesGlobal x.mode) = .ok () := by
    rw [grwp_eq_ok, Bool.or_eq_true]
    exact fun h => h.elim hr.destination hr.mode.global
  rw [he, pairs, globals, hc]
  rfl

/-- Settles O18: a checked address that no range allows, as the first failure of R175 step 5. -/
theorem rangeProtectionTraps : Obligations.RangeProtectionTraps := by
  unfold Obligations.RangeProtectionTraps
  intro i x s hx hregs haddr htrans hproten hset heads ranged allows
  constructor
  · rintro hread ⟨a, hmem, hranged, hno⟩
    have refused : readOk s a = false := Bool.eq_false_iff.mpr fun h => hno (readOk_eq_true.mp h)
    exact exec_of_checkData_trap .mpr hx hregs
      (checkData_mpr haddr htrans hset hread hmem ((headChecked_eq_true hproten).mpr hranged) refused)
  · rintro hread hwrite ⟨a, hmem, hranged, hno⟩
    have refused : writeOk s a = false := Bool.eq_false_iff.mpr fun h => hno (writeOk_eq_true.mp h)
    have readable (hk : x.kind.readRange = true) (b : Word) (hb : b ∈ modeHeads s x.mode x.kind.size)
        (hc : headChecked s b = true) : readOk s b = true :=
      readOk_eq_true.mpr (hread hk b hb ((headChecked_eq_true hproten).mp hc))
    exact exec_of_checkData_trap .mpw hx hregs
      (checkData_mpw haddr htrans hset readable hwrite hmem ((headChecked_eq_true hproten).mpr hranged) refused)

/-- Settles O19: the first failure of R175 step 4, recorded at the effective address. -/
theorem translationTraps : Obligations.TranslationTraps := by
  unfold Obligations.TranslationTraps
  intro i x s hx hregs haddr paged bytes forbidden
  constructor
  · rintro ⟨va, hva, hu, hl⟩
    exact exec_of_checkData_trap (.vaf (modeEa s x.mode)) hx hregs
      (checkData_of_translateAll haddr (translateAll_vaf _ _ _ _ hva hu hl))
  · rintro hmapped ⟨va, hva, hforbidden⟩
    have denied : pteDenies s va false x.kind.reads x.kind.writes = true ∨ upperDenied s va = true := by
      rcases hforbidden with ⟨hu, t, ht, hd⟩ | hupper
      · exact .inl (pteDenies_eq_true.mpr ⟨hu, t, ht, .inr hd⟩)
      · exact .inr (upperDenied_eq_true.mpr hupper)
    exact exec_of_checkData_trap (.vap (modeEa s x.mode)) hx hregs
      (checkData_of_translateAll haddr (translateAll_vap _ hmapped hva denied))

end Sys2Proof.Machine
end

section
/-!
PROOFS. The decoder and the encoder (30_encoding R300, R307, R320): a well-formed instruction reads back from its encoding,
and what the decoder gives is well formed and of the length of its bytes.
-/
namespace Sys2Proof

/-! ### The two lengths

Bit 0 of op1 tells the length, so a word that either decoder knows has the length of that decoder. -/

theorem decode16_of_not_short {h : Half} (hs : isShort (h.extractLsb' 0 8) = false) : decode16 h = none := by
  have hne (k : BitVec 8) (hk : isShort k = true) : h.extractLsb' 0 8 ≠ k := by
    rintro rfl
    cases hs.symm.trans hk
  simp [decode16, hne, isShort]

theorem decode32_of_short {w : Word} (hs : isShort (Fld.op1 w) = true) : decode32 w = none := by
  have hne (k : BitVec 8) (hk : isShort k = false) : Fld.op1 w ≠ k := by
    rintro rfl
    cases hk.symm.trans hs
  simp [decode32, hne, isShort]

theorem isShort_of_decode16 {h : Half} {i : Instr} (hd : decode16 h = some i) : isShort (h.extractLsb' 0 8) = true := by
  cases hs : isShort (h.extractLsb' 0 8) with
  | true => rfl
  | false => simp [decode16_of_not_short hs] at hd

theorem isShort_of_decode32 {w : Word} {i : Instr} (hd : decode32 w = some i) : isShort (w.extractLsb' 0 8) = false := by
  cases hs : isShort (w.extractLsb' 0 8) with
  | true => simp [decode32_of_short hs] at hd
  | false => rfl

theorem decode_halfBytes {h : Half} {i : Instr} (hd : decode16 h = some i) (rest : List Byte) :
    decode (halfBytes h ++ rest) = .ok (i, rest) := by
  simp [decode, halfBytes, isShort_of_decode16 hd, join_halfBytes, hd]

theorem decode_wordBytes {w : Word} {i : Instr} (hd : decode32 w = some i) (rest : List Byte) :
    decode (wordBytes w ++ rest) = .ok (i, rest) := by
  simp [decode, wordBytes, isShort_of_decode32 hd, join_wordBytes, hd]

/-- Decoded bytes begin with a half-word or a word that its decoder knows. -/
theorem decode_eq_ok {bs rest : List Byte} {i : Instr} (h : decode bs = .ok (i, rest)) :
    (∃ hw, decode16 hw = some i ∧ bs.length = 2 + rest.length) ∨
    ∃ w, decode32 w = some i ∧ bs.length = 4 + rest.length := by
  unfold decode at h
  split at h
  next b0 b1 tail =>
    split at h
    · split at h
      next hd =>
        cases h
        exact .inl ⟨_, hd, by simp; omega⟩
      next => cases h
    · split at h
      next b2 b3 tail' =>
        split at h
        next hd =>
          cases h
          exact .inr ⟨_, hd, by simp; omega⟩
        next => cases h
      next => cases h
  next => cases h

/-! ### Fields of the formats that the laws of the decoder leave out -/

@[simp] theorem fld_rcr (op1 : BitVec 8) (op2 : BitVec 3) (k : BitVec 9) (s3 s1 d : BitVec 4) :
    Fld.op1 (Fmt.rcr op1 op2 k s3 s1 d) = op1 ∧ Fld.s1 (Fmt.rcr op1 op2 k s3 s1 d) = s1 ∧
    Fld.s3 (Fmt.rcr op1 op2 k s3 s1 d) = s3 ∧ Fld.d (Fmt.rcr op1 op2 k s3 s1 d) = d ∧
    Fld.op2rrrw (Fmt.rcr op1 op2 k s3 s1 d) = op2 ∧ Fld.const9 (Fmt.rcr op1 op2 k s3 s1 d) = k := by
  refine ⟨?_, ?_, ?_, ?_, ?_, ?_⟩
  all_goals
    apply BitVec.eq_of_getLsbD_eq
    intro i hi
    simp only [Fld.op1, Fld.s1, Fld.s3, Fld.d, Fld.op2rrrw, Fld.const9, Fmt.rcr, BitVec.getLsbD_append,
      BitVec.getLsbD_extractLsb']
    grind

@[simp] theorem fld_sr (op1 : BitVec 8) (hi s1 : BitVec 4) :
    (Fmt.sr op1 hi s1).extractLsb' 0 8 = op1 ∧ (Fmt.sr op1 hi s1).extractLsb' 8 4 = s1 ∧
    (Fmt.sr op1 hi s1).extractLsb' 12 4 = hi := by
  refine ⟨?_, ?_, ?_⟩
  all_goals
    apply BitVec.eq_of_getLsbD_eq
    intro i hi
    simp only [Fmt.sr, BitVec.getLsbD_append, BitVec.getLsbD_extractLsb']
    grind

@[simp] theorem fld_sc (op1 k : BitVec 8) :
    (Fmt.sc op1 k).extractLsb' 0 8 = op1 ∧ (Fmt.sc op1 k).extractLsb' 8 8 = k :=
  ⟨BitVec.extractLsb'_append_eq_right, BitVec.extractLsb'_append_eq_left⟩

theorem extractLsb'_const8 (k : BitVec 8) : (0#1 ++ k).extractLsb' 0 8 = k := BitVec.extractLsb'_append_eq_right

theorem bitNumber_and_bit (b : Bool) (n : BitVec 3) :
    (BitVec.ofBool b ++ n).extractLsb' 0 3 = n ∧ (BitVec.ofBool b ++ n)[3] = b :=
  ⟨BitVec.extractLsb'_append_eq_right, by rw [← BitVec.getLsbD_eq_getElem, BitVec.getLsbD_append]; simp⟩

/-! ### The addressing modes -/

/-- A group of words, one opcode for each kind of mode, reads back mode by mode where each of its opcodes does. -/
theorem decode32_encodeMode {build : Mode → Option Instr} {opAbs opBo opPair : BitVec 8} {p : BitVec 2} {k : BitVec 4}
    {long : Option (BitVec 8)} {r : Fin 16} {m : Mode} (hm : m.encodable long.isSome = true)
    (habs : ∀ off, decode32 (Fmt.abs opAbs p off (regBits r)) = build (.abs off))
    (hbo : ∀ hi b off, decode32 (Fmt.bo opBo (hi ++ k) off (regBits b) (regBits r)) = (boMode hi b off).bind build)
    (hpair : ∀ hi b off, decode32 (Fmt.bo opPair (hi ++ k) off (regBits b) (regBits r)) = (pairMode hi b off).bind build)
    (hlong : ∀ op ∈ long, ∀ b off, decode32 (Fmt.bol op off (regBits b) (regBits r)) = build (.baseLong b off)) :
    ∃ w, encodeMode opAbs p opBo opPair k long r m = some w ∧ decode32 w = build m := by
  cases m with
  | abs off => exact ⟨_, rfl, habs off⟩
  | base b off | preInc b off | postInc b off => exact ⟨_, rfl, hbo _ b off⟩
  | circ b off | bitRev b => exact ⟨_, rfl, hpair _ b _⟩
  | baseLong b off =>
    obtain ⟨op, hop⟩ := Option.isSome_iff_exists.mp hm
    exact ⟨_, by rw [hop]; rfl, hlong op hop b off⟩

/-- The two digits of op2 of BO. -/
theorem extractLsb'_digits (hi : BitVec 2) (k : BitVec 4) :
    (hi ++ k).extractLsb' 4 2 = hi ∧ (hi ++ k).extractLsb' 0 4 = k :=
  ⟨BitVec.extractLsb'_append_eq_left, BitVec.extractLsb'_append_eq_right⟩

/-- The loads: ABS 05H or 85H, BO 09H and 29H, and BOL 19H or 99H for LD.W and LD.A. -/
theorem decode32_load {opAbs : BitVec 8} {p : BitVec 2} {k : BitVec 4} {long : Option (BitVec 8)} {r : Fin 16} {m : Mode}
    (habs : (opAbs = 0x05 ∧ k = 0#2 ++ p) ∨ (opAbs = 0x85 ∧ k = 1#2 ++ p))
    (hlong : long = none ∨ (long = some 0x19 ∧ k = 4) ∨ (long = some 0x99 ∧ k = 6))
    (hm : m.encodable long.isSome = true) :
    ∃ w, encodeMode opAbs p 0x09 0x29 k long r m = some w ∧ decode32 w = loadOf k r m := by
  refine decode32_encodeMode hm (fun off => ?_) (fun hi b off => ?_) (fun hi b off => ?_) (fun op hop b off => ?_)
  · rcases habs with ⟨rfl, rfl⟩ | ⟨rfl, rfl⟩ <;> simp [decode32]
  · simp [decode32, extractLsb'_digits]
  · simp [decode32, extractLsb'_digits]
  · rcases hlong with rfl | ⟨rfl, rfl⟩ | ⟨rfl, rfl⟩ <;> cases hop <;> simp [decode32, loadOf]

/-- The stores: ABS 25H or A5H, BO 89H and A9H, and BOL 59H for ST.W. -/
theorem decode32_store {opAbs : BitVec 8} {p : BitVec 2} {k : BitVec 4} {long : Option (BitVec 8)} {r : Fin 16} {m : Mode}
    (habs : (opAbs = 0x25 ∧ (p = 0 ∨ p = 2) ∧ k = 0#2 ++ p) ∨ (opAbs = 0xA5 ∧ k = 1#2 ++ p))
    (hlong : long = none ∨ (long = some 0x59 ∧ k = 4)) (hm : m.encodable long.isSome = true) :
    ∃ w, encodeMode opAbs p 0x89 0xA9 k long r m = some w ∧ decode32 w = storeOf k r m := by
  refine decode32_encodeMode hm (fun off => ?_) (fun hi b off => ?_) (fun hi b off => ?_) (fun op hop b off => ?_)
  · rcases habs with ⟨rfl, rfl | rfl, rfl⟩ | ⟨rfl, rfl⟩ <;> simp [decode32, storeOf]
  · simp [decode32, extractLsb'_digits]
  · simp [decode32, extractLsb'_digits]
  · rcases hlong with rfl | ⟨rfl, rfl⟩ <;> cases hop
    simp [decode32, storeOf]

/-- The digits of SWAP.W and LDMST keep them apart from the other instructions of BO 49H. -/
theorem decode49_rmw {k : BitVec 4} (hk : k = 0 ∨ k = 1) (hi : BitVec 2) (off : BitVec 10) (b r : Fin 16) :
    decode49 (hi ++ k) off b r = (boMode hi b off).bind (rmwOf k r) := by
  have hne (n : BitVec 6) (hn : n.extractLsb' 0 4 ≠ k) : hi ++ k ≠ n := by
    rintro rfl
    exact hn (extractLsb'_digits hi k).2
  have hothers : hi ++ k ≠ 0x24 ∧ hi ++ k ≠ 0x25 ∧ hi ++ k ≠ 0x26 ∧ hi ++ k ≠ 0x27 ∧ hi ++ k ≠ 0x28 := by
    rcases hk with rfl | rfl <;> refine ⟨hne _ ?_, hne _ ?_, hne _ ?_, hne _ ?_, hne _ ?_⟩ <;> decide
  simp only [decode49, hothers, if_false, extractLsb'_digits]

/-- SWAP.W and LDMST: ABS E5H, BO 49H and 69H. -/
theorem decode32_rmw {p : BitVec 2} {k : BitVec 4} {r : Fin 16} {m : Mode} (hp : k = 0#2 ++ p)
    (hk : k = 0 ∨ k = 1) (hm : m.encodable false = true) :
    ∃ w, encodeMode 0xE5 p 0x49 0x69 k none r m = some w ∧ decode32 w = rmwOf k r m := by
  refine decode32_encodeMode hm (fun off => ?_) (fun hi b off => ?_) (fun hi b off => ?_) (fun op hop => by cases hop)
  · simp [decode32, hp]
  · simp [decode32, decode49_rmw hk]
  · simp [decode32, extractLsb'_digits]

/-! ### Every instruction -/

theorem extractLsb'_signExtend_nine (k : BitVec 4) : (k.signExtend 9).extractLsb' 0 4 = k := by
  apply BitVec.eq_of_getLsbD_eq
  intro j hj
  simp only [BitVec.getLsbD_extractLsb', BitVec.getLsbD_signExtend]
  grind

/-- A 32-bit instruction has a word, and it reads back: format by format. -/
theorem decode32_encode32 {i : Instr} (hwf : i.wf = true) (hlen : i.len = .w32) :
    ∃ w, encode32 i = some w ∧ decode32 w = some i := by
  have mode {q : Bool} {m : Mode} (h : (true && m.encodable q) = true) : m.encodable q = true := h
  cases i <;> obtain rfl := hlen
  case nop | debug | rfm | ret | rfe | svlcx | rslcx | enable | disable | dsync | isync | trapv | trapsv =>
    exact ⟨_, rfl, by simp [decode32, decodeSys]⟩
  case rstv => exact ⟨_, rfl, by simp [decode32]⟩
  case call t | jl t => cases t <;> exact ⟨_, rfl, by simp [decode32, encodeTarget]⟩
  case mfcr | mtcr => exact ⟨_, rfl, by simp [decode32]⟩
  case bisr | syscall => exact ⟨_, rfl, by simp [decode32, extractLsb'_const8]⟩
  case stlcx m | stucx m | ldlcx m | lducx m =>
    cases m <;> exact ⟨_, rfl, by simp [decode32, encodeCtx, decodeCtxAbs, decode49]⟩
  case lea m => cases m <;> exact ⟨_, rfl, by simp [decode32, decode49]⟩
  case stT => exact ⟨_, rfl, by simp [decode32, bitNumber_and_bit]⟩
  case addx op | addc op | eq op | ne op | lt op | ge op =>
    cases op <;> exact ⟨_, rfl, by simp [decode32, encodeInt, intOf]⟩
  case clz | clo | cls | addscA | addscAt => exact ⟨_, rfl, by simp [decode32]⟩
  case extrU f => cases f <;> exact ⟨_, rfl, by simp [decode32]⟩
  case cmpF | mulF | divF | updfl | ftoi | ftoq31 | ftou | itof | q31tof | qseedF =>
    exact ⟨_, rfl, by simp [decode32, encodeFp, fpOf]⟩
  case addF | subF | maddF | msubF => exact ⟨_, rfl, by simp [decode32, encodeFp3, fp3Of]⟩
  case tlbdemap | tlbflushA | tlbflushB | tlbprobeA | tlbprobeI | tlbmap =>
    exact ⟨_, rfl, by simp [decode32, mmuOf]⟩
  case cmov op => cases op <;> exact ⟨_, rfl, by simp [decode32, cmovOf, extractLsb'_signExtend_nine]⟩
  case ldB | ldBu | ldH | ldHu => exact decode32_load (.inl ⟨rfl, rfl⟩) (.inl rfl) (mode hwf)
  case ldD | ldDa => exact decode32_load (.inr ⟨rfl, rfl⟩) (.inl rfl) (mode hwf)
  case ldW => exact decode32_load (.inr ⟨rfl, rfl⟩) (.inr (.inl ⟨rfl, rfl⟩)) (mode hwf)
  case ldA => exact decode32_load (.inr ⟨rfl, rfl⟩) (.inr (.inr ⟨rfl, rfl⟩)) (mode hwf)
  case stB => exact decode32_store (.inl ⟨rfl, .inl rfl, rfl⟩) (.inl rfl) (mode hwf)
  case stH => exact decode32_store (.inl ⟨rfl, .inr rfl, rfl⟩) (.inl rfl) (mode hwf)
  case stD | stA | stDa => exact decode32_store (.inr ⟨rfl, rfl⟩) (.inl rfl) (mode hwf)
  case stW => exact decode32_store (.inr ⟨rfl, rfl⟩) (.inr ⟨rfl, rfl⟩) (mode hwf)
  case swapW => exact decode32_rmw rfl (.inl rfl) (mode hwf)
  case ldmst => exact decode32_rmw rfl (.inr rfl) (mode hwf)

/-- A 16-bit instruction has a half-word, and it reads back. -/
theorem decode16_encode16 {i : Instr} (hwf : i.wf = true) (hlen : i.len = .w16) :
    ∃ h, encode16 i = some h ∧ decode16 h = some i := by
  cases i <;> obtain rfl := hlen
  case nop | rfe | ret | debug => exact ⟨_, rfl, rfl⟩
  case bisr => exact ⟨_, rfl, by simp [decode16]⟩
  case cmov op => cases op <;> exact ⟨_, rfl, by simp [decode16]⟩
  all_goals cases hwf

/-- Settles O1: the word of the instruction's length reads back, and its bytes are that word's. -/
theorem decodingInvertsEncoding : Obligations.DecodingInvertsEncoding := by
  unfold Obligations.DecodingInvertsEncoding
  intro i hwf
  cases hl : i.len with
  | w16 =>
    obtain ⟨h, he, hd⟩ := decode16_encode16 hwf hl
    exact ⟨halfBytes h, by simp [encode, hl, he], decode_halfBytes hd⟩
  | w32 =>
    obtain ⟨w, he, hd⟩ := decode32_encode32 hwf hl
    exact ⟨wordBytes w, by simp [encode, hl, he], decode_wordBytes hd⟩

/-! ### What a decoder gives -/

/-- What a decoder gives, if anything, is well formed and of the given length. -/
def WellFormedOf (l : Len) (o : Option Instr) : Prop := ∀ i, o = some i → i.wf = true ∧ i.len = l

/-! A decoder is a table of rows, tested in turn: its rows are well formed one by one. -/

section WellFormedOf

variable {l : Len}

theorem WellFormedOf.none : WellFormedOf l none := fun _ h => nomatch h

theorem WellFormedOf.some {i : Instr} (hwf : i.wf = true) (hl : i.len = l) : WellFormedOf l (some i) := by
  rintro _ ⟨⟩
  exact ⟨hwf, hl⟩

theorem WellFormedOf.ite {p : Prop} [Decidable p] {a b : Option Instr} (ha : WellFormedOf l a) (hb : WellFormedOf l b) :
    WellFormedOf l (if p then a else b) := by
  split
  · exact ha
  · exact hb

/-- One row of an opcode table. -/
theorem WellFormedOf.row {p : Prop} [Decidable p] {i : Instr} {b : Option Instr} (hwf : i.wf = true) (hl : i.len = l)
    (hb : WellFormedOf l b) : WellFormedOf l (if p then .some i else b) := .ite (.some hwf hl) hb

theorem WellFormedOf.bind {m : Option Mode} {f : Mode → Option Instr}
    (hm : ∀ x, m = .some x → x.encodable false = true)
    (hf : ∀ x, x.encodable false = true → WellFormedOf l (f x)) : WellFormedOf l (m.bind f) := by
  cases m with
  | none => exact .none
  | some x => exact hf x (hm x rfl)

end WellFormedOf

theorem Mode.encodable_true (m : Mode) : m.encodable true = true := by cases m <;> rfl

theorem boMode_encodable {hi : BitVec 2} {b : Fin 16} {off : BitVec 10} (m : Mode) (h : boMode hi b off = some m) :
    m.encodable false = true := by
  unfold boMode at h
  split at h
  · cases h
    rfl
  · split at h
    · cases h
      rfl
    · split at h
      · cases h
        rfl
      · cases h

theorem pairMode_encodable {hi : BitVec 2} {b : Fin 16} {off : BitVec 10} (m : Mode) (h : pairMode hi b off = some m) :
    m.encodable false = true := by
  unfold pairMode at h
  split at h
  · cases h
    rfl
  · split at h
    · cases h
      rfl
    · cases h

theorem wellFormed_loadOf (k : BitVec 4) (r : Fin 16) (m : Mode) (hm : m.encodable false = true) :
    WellFormedOf .w32 (loadOf k r m) :=
  .row hm rfl <| .row hm rfl <| .row hm rfl <| .row hm rfl <| .row m.encodable_true rfl <| .row hm rfl <|
  .row m.encodable_true rfl <| .row hm rfl .none

theorem wellFormed_storeOf (k : BitVec 4) (r : Fin 16) (m : Mode) (hm : m.encodable false = true) :
    WellFormedOf .w32 (storeOf k r m) :=
  .row hm rfl <| .row hm rfl <| .row m.encodable_true rfl <| .row hm rfl <| .row hm rfl <| .row hm rfl .none

theorem wellFormed_rmwOf (k : BitVec 4) (r : Fin 16) (m : Mode) (hm : m.encodable false = true) :
    WellFormedOf .w32 (rmwOf k r m) := .row hm rfl <| .row hm rfl .none

theorem wellFormed_decodeSys (op2 : BitVec 6) : WellFormedOf .w32 (decodeSys op2) :=
  .row rfl rfl <| .row rfl rfl <| .row rfl rfl <| .row rfl rfl <| .row rfl rfl <| .row rfl rfl <| .row rfl rfl <|
  .row rfl rfl <| .row rfl rfl <| .row rfl rfl <| .row rfl rfl <| .row rfl rfl <| .row rfl rfl .none

theorem wellFormed_decodeCtxAbs (op2 : BitVec 2) (off : BitVec 18) : WellFormedOf .w32 (decodeCtxAbs op2 off) :=
  .row rfl rfl <| .row rfl rfl <| .row rfl rfl <| .some rfl rfl

theorem wellFormed_decode49 (op2 : BitVec 6) (off : BitVec 10) (b r : Fin 16) :
    WellFormedOf .w32 (decode49 op2 off b r) :=
  .row rfl rfl <| .row rfl rfl <| .row rfl rfl <| .row rfl rfl <| .row rfl rfl <|
  .bind boMode_encodable (wellFormed_rmwOf _ _)

theorem wellFormed_intOf (op2 : Nat) (c a : Fin 16) (op : Op2) : WellFormedOf .w32 (intOf op2 c a op) :=
  .row rfl rfl <| .row rfl rfl <| .row rfl rfl <| .row rfl rfl <| .row rfl rfl <| .row rfl rfl .none

theorem wellFormed_fpOf (op2 : BitVec 8) (c a b : Fin 16) : WellFormedOf .w32 (fpOf op2 c a b) :=
  .row rfl rfl <| .row rfl rfl <| .row rfl rfl <| .row rfl rfl <| .row rfl rfl <| .row rfl rfl <| .row rfl rfl <|
  .row rfl rfl <| .row rfl rfl <| .row rfl rfl .none

theorem wellFormed_fp3Of (op2 : BitVec 4) (c d a b : Fin 16) : WellFormedOf .w32 (fp3Of op2 c d a b) :=
  .row rfl rfl <| .row rfl rfl <| .row rfl rfl <| .row rfl rfl .none

theorem wellFormed_mmuOf (op2 : BitVec 8) (a : Fin 16) : WellFormedOf .w32 (mmuOf op2 a) :=
  .row rfl rfl <| .row rfl rfl <| .row rfl rfl <| .row rfl rfl <| .row rfl rfl <| .row rfl rfl .none

theorem wellFormed_cmovOf (w : Word) : WellFormedOf .w32 (cmovOf w) :=
  .ite (.row rfl rfl .none) <| .row rfl rfl .none

theorem wellFormed_decode16 (h : Half) : WellFormedOf .w16 (decode16 h) :=
  .ite (.row rfl rfl <| .row rfl rfl <| .row rfl rfl <| .row rfl rfl .none) <|
  .row rfl rfl <| .row rfl rfl <| .row rfl rfl .none

/-- The rows in the order of `decode32`, from op1 0DH to ABH. -/
theorem wellFormed_decode32 (w : Word) : WellFormedOf .w32 (decode32 w) :=
  .ite (wellFormed_decodeSys _) <| .ite (.row rfl rfl .none) <|
    .row rfl rfl <| .row rfl rfl <| .row rfl rfl <| .row rfl rfl <| .ite (.row rfl rfl <| .row rfl rfl .none) <|
    .row rfl rfl <| .row rfl rfl <| .ite (.row rfl rfl <| .row rfl rfl .none) <|
    .ite (wellFormed_decodeCtxAbs _ _) <| .ite (wellFormed_decode49 _ _ _ _) <|
    .ite (.bind pairMode_encodable (wellFormed_rmwOf _ _)) <|
    .ite (wellFormed_loadOf _ _ _ rfl) <| .ite (wellFormed_loadOf _ _ _ rfl) <|
    .ite (.row rfl rfl <| .row rfl rfl .none) <| .ite (wellFormed_storeOf _ _ _ rfl) <|
    .ite (wellFormed_rmwOf _ _ _ rfl) <| .ite (.row rfl rfl .none) <| .ite (.row rfl rfl .none) <|
    .ite (.bind boMode_encodable (wellFormed_loadOf _ _)) <| .ite (.bind pairMode_encodable (wellFormed_loadOf _ _)) <|
    .ite (.bind boMode_encodable (wellFormed_storeOf _ _)) <| .ite (.bind pairMode_encodable (wellFormed_storeOf _ _)) <|
    .row rfl rfl <| .row rfl rfl <| .row rfl rfl <| .row rfl rfl <|
    .ite (wellFormed_mmuOf _ _) <| .ite (wellFormed_intOf _ _ _ _) <| .ite (wellFormed_intOf _ _ _ _) <|
    .ite (.row rfl rfl <| .row rfl rfl <| .row rfl rfl .none) <| .ite (.row rfl rfl <| .row rfl rfl .none) <|
    .ite (.row rfl rfl .none) <| .ite (.row rfl rfl .none) <| .ite (.row rfl rfl .none) <|
    .ite (wellFormed_fpOf _ _ _ _) <| .ite (wellFormed_fp3Of _ _ _ _ _) <|
    .ite (wellFormed_cmovOf w) <| .ite (wellFormed_cmovOf w) .none

/-- Settles O2: each decoder gives well-formed instructions of its length, and `decode` drops that many bytes. -/
theorem decodedInstructionsAreWellFormed : Obligations.DecodedInstructionsAreWellFormed := by
  unfold Obligations.DecodedInstructionsAreWellFormed
  intro bs rest i h
  rcases decode_eq_ok h with ⟨hw, hd, hlen⟩ | ⟨w, hd, hlen⟩
  · obtain ⟨hwf, hl⟩ := wellFormed_decode16 hw i hd
    exact ⟨hwf, by rw [hl]; exact hlen⟩
  · obtain ⟨hwf, hl⟩ := wellFormed_decode32 w i hd
    exact ⟨hwf, by rw [hl]; exact hlen⟩

/-- Settles O3: the decoder evaluates on each word. -/
theorem handWrittenWordsDecode : Obligations.HandWrittenWordsDecode := by
  unfold Obligations.HandWrittenWordsDecode
  exact ⟨rfl, rfl, rfl, rfl, rfl, rfl⟩

end Sys2Proof
end

section
/-!
PROOFS. Bits that the decoder does not know (30_encoding R304, R307, R320): J and JA, and the values of the parameter
`decode`.
-/
namespace Sys2Proof.Machine

/-! ### A step with the debug controller off -/

theorem firstBefore_of_off {s : State} (hd : dbgDe s.dbgsr = false) : firstBefore s = none := by
  simp [firstBefore, trigBefore, trigArmed_of_off _ hd]

theorem firstAfter_of_off {s : State} (hd : dbgDe s.dbgsr = false) (acc : List TriggerAccess) : firstAfter s acc = none := by
  simp [firstAfter, trigAfter, trigArmed_of_off _ hd]

theorem afterTriggers_of_off {s : State} (hd : dbgDe s.dbgsr = false) (i : Option Instr)
    (o : Host.Outcome State Fault Refusal) : afterTriggers s i o = o := by
  cases o with
  | fault | refused => rfl
  | next t => simp [afterTriggers, firstAfter_of_off hd]

theorem step_of_off {s : State} (hq : s.Quiet) (hd : dbgDe s.dbgsr = false) :
    step s = runFetched s.atBoundary (fetch s.atBoundary) := by
  have hd' : dbgDe s.atBoundary.dbgsr = false := hd
  rw [step_of_quiet hq, executeOne_of_no_trigger (spendAsi_of_off hd') rfl (.inr (firstBefore_of_off hd')),
    afterTriggers_of_off hd']

/-! ### The targets of J and JA -/

theorem relTarget_eq (pc : Word) (disp : BitVec 24) :
    pc + (disp.signExtend 32 <<< 1) = BitVec.ofInt 32 ((pc.toNat : Int) + 2 * disp.toInt) := by
  rw [BitVec.ofInt_add, BitVec.ofInt_mul, BitVec.ofInt_natCast, BitVec.ofNat_toNat, BitVec.setWidth_eq, BitVec.signExtend,
    BitVec.shiftLeft_eq_mul_twoPow, BitVec.mul_comm]
  rfl

theorem absTarget_eq (disp : BitVec 24) :
    disp.extractLsb' 20 4 ++ 0#7 ++ disp.extractLsb' 0 20 ++ 0#1 =
      (disp.extractLsb' 20 4).setWidth 32 <<< 28 ||| (disp.extractLsb' 0 20).setWidth 32 <<< 1 := by
  apply BitVec.eq_of_getLsbD_eq
  intro j hj
  simp only [BitVec.getLsbD_append, BitVec.getLsbD_or, BitVec.getLsbD_shiftLeft, BitVec.getLsbD_setWidth,
    BitVec.getLsbD_extractLsb', BitVec.getLsbD_zero]
  grind

/-! ### What an instruction Volume 1 does not name does -/

/-- A field that takes the bits it has. -/
theorem setField_self {n : Nat} (w : Word) (lo : Nat) : setField w lo (w.extractLsb' lo n) = w := by
  apply BitVec.eq_of_getLsbD_eq
  intro j hj
  rw [getLsbD_setField, BitVec.getLsbD_extractLsb']
  split
  next h =>
    have hin : j - lo < n := by omega
    rw [Nat.add_sub_cancel' h.1, decide_eq_true hj, decide_eq_true hin, Bool.true_and, Bool.true_and]
  next => rfl

/-- J and JA write the pc alone. -/
theorem execOther_jump {s : State} {w : Word} {t : Target} (h : jumpOf w = some t) :
    execOther w s = .next { s with pc := evenAddr (targetOf s t), completed := true } := by
  have hr : otherEffect w s =
      { d := s.d, a := s.a, usb := pswUsb s.psw, nextPc := targetOf s t, writesGlobal := false } := by
    rw [otherEffect, h]
  have hg : grwp s false = .ok () := rfl
  have keep (n : Fin 16) : s.a.set n (s.ar n) = s.a := Vector.set_getElem_self n.isLt
  have ha : (((s.a.set 0 (s.ar 0)).set 1 (s.ar 1)).set 8 (s.ar 8)).set 9 (s.ar 9) = s.a := by
    rw [show s.a.set 0 (s.ar 0) = s.a from keep 0, show s.a.set 1 (s.ar 1) = s.a from keep 1,
      show s.a.set 8 (s.ar 8) = s.a from keep 8]
    exact keep 9
  have hp : setField s.psw 24 (pswUsb s.psw) = s.psw := setField_self _ _
  simp only [execOther, hr, hg, ha, hp, ok_bind, finish_ok, Bool.false_eq_true, if_false]

/-- The address registers after an `Other(f)` that is no jump: without permission the global ones are kept. -/
def otherAddrRegs (s : State) (r : Config.OtherEffect) : Vector Word 16 :=
  if r.writesGlobal then r.a else (((r.a.set 0 (s.ar 0)).set 1 (s.ar 1)).set 8 (s.ar 8)).set 9 (s.ar 9)

theorem getElem_otherAddrRegs (s : State) (r : Config.OtherEffect) (k : Fin 16) :
    (otherAddrRegs s r)[k] = if r.writesGlobal = false ∧ (k = 0 ∨ k = 1 ∨ k = 8 ∨ k = 9) then s.ar k else r.a[k] := by
  unfold otherAddrRegs
  cases r.writesGlobal with
  | true => simp
  | false =>
    simp only [Bool.false_eq_true, if_false, true_and]
    grind [getElem_set_fin]

section notJump

variable {s : State} {w : Word} {r : Config.OtherEffect}

theorem otherEffect_of_not_jump (h : jumpOf w = none) :
    otherEffect w s = Config.otherEffect w s.pc s.d s.a (pswUsb s.psw) := by
  rw [otherEffect, h]

/-- An `Other(f)` that may not write a global address register. -/
theorem execOther_grwp (hr : otherEffect w s = r) (hg : r.writesGlobal = true) (hgw : pswGw s.psw = false) :
    execOther w s = .next (enterTrap 1 7 s.pc s) := by
  have hguard : grwp s r.writesGlobal = .error (.trap .grwp) := by simp [grwp, hg, hgw]
  simp only [execOther, hr, hguard]
  rfl

theorem execOther_effect (hr : otherEffect w s = r) (hg : r.writesGlobal = true → pswGw s.psw = true) :
    execOther w s = .next { s with
      d := r.d, a := otherAddrRegs s r, psw := setField s.psw 24 r.usb, pc := evenAddr r.nextPc, completed := true } := by
  have hguard : grwp s r.writesGlobal = .ok () := (grwp_eq_ok s _ _).mpr hg
  simp only [execOther, hr, hguard]
  rfl

end notJump

/-! ### What bits that the decoder does not know decode to -/

theorem decodeFetched_of_error {bs : List Byte} {e : DecodeError} (h : decode bs = .error e) :
    decodeFetched bs = decodeUnknown bs := by
  simp [decodeFetched, h]

theorem jumpOf_rel {w : Word} (h : Fld.op1 w = 0x1D) : jumpOf w = some (.rel (Fld.disp24 w)) := if_pos h

theorem jumpOf_abs {w : Word} (h : Fld.op1 w = 0x9D) : jumpOf w = some (.abs (Fld.disp24 w)) := by
  simp [jumpOf, h]

theorem jumpOf_none {w : Word} (hj : Fld.op1 w ≠ 0x1D) (hja : Fld.op1 w ≠ 0x9D) : jumpOf w = none := by
  rw [jumpOf, if_neg hj, if_neg hja]

theorem decodeUnknown_jump {bs : List Byte} {t : Target} (h : jumpOf (wordOf bs) = some t) : decodeUnknown bs = .other := by
  simp [decodeUnknown, h]

/-- Bits that are no jump decode to the parameter's value, where an instruction has their length. -/
theorem decodeUnknown_parameter {bs : List Byte} {x : Decoded} (h : jumpOf (wordOf bs) = none)
    (hx : Config.decodeElse (wordOf bs) = x) (hlen : ∀ i, x = .instr i → (lenBytes i.len).toNat = bs.length) :
    decodeUnknown bs = x := by
  cases x with
  | instr i => simp [decodeUnknown, h, hx, hlen i rfl]
  | illegal | unimplemented | other => simp [decodeUnknown, h, hx]

theorem decodeUnknown_other_length {bs : List Byte} {i : Instr} (h : jumpOf (wordOf bs) = none)
    (hx : Config.decodeElse (wordOf bs) = .instr i) (hlen : (lenBytes i.len).toNat ≠ bs.length) :
    decodeUnknown bs = .illegal := by
  simp [decodeUnknown, h, hx, hlen]

section runFetched

variable {s : State} {bs : List Byte}

theorem runFetched_instr {i : Instr} (h : decodeFetched bs = .instr i) : runFetched s (.ok bs) = exec i s := by
  simp [runFetched, h]

theorem runFetched_illegal (h : decodeFetched bs = .illegal) :
    runFetched s (.ok bs) = .next (enterTrap 2 1 s.pc s) := by
  simp only [runFetched, h]
  rfl

theorem runFetched_unimplemented (h : decodeFetched bs = .unimplemented) :
    runFetched s (.ok bs) = .next (enterTrap 2 2 s.pc s) := by
  simp only [runFetched, h]
  rfl

theorem runFetched_other (h : decodeFetched bs = .other) : runFetched s (.ok bs) = execOther (wordOf bs) s := by
  simp [runFetched, h]

end runFetched

/-- Settles O5: a step at a quiet boundary runs what the fetched bits decode to, a jump or the parameter's value. -/
theorem unknownWordsFollowTheDecodeParameter : Obligations.UnknownWordsFollowTheDecodeParameter := by
  unfold Obligations.UnknownWordsFollowTheDecodeParameter
  intro s bs e hq hd hf he w disp jump
  have hstep : step s = runFetched s.atBoundary (.ok bs) := by rw [step_of_off hq hd, hf]
  have hdec {x : Decoded} (h : decodeUnknown bs = x) : decodeFetched bs = x := (decodeFetched_of_error he).trans h
  have hjump {t : Target} (ht : jumpOf w = some t) : jump (targetOf s t) :=
    hstep.trans ((runFetched_other (hdec (decodeUnknown_jump ht))).trans (execOther_jump ht))
  refine ⟨fun hj => ?_, fun hja => ?_, fun hj hja => ?_⟩
  · rw [← relTarget_eq]
    exact hjump (jumpOf_rel hj)
  · rw [← absTarget_eq]
    exact hjump (jumpOf_abs hja)
  have hnone : jumpOf w = none := jumpOf_none hj hja
  cases hw : Config.decodeElse w with
  | illegal => exact hstep.trans (runFetched_illegal (hdec (decodeUnknown_parameter hnone hw nofun)))
  | unimplemented => exact hstep.trans (runFetched_unimplemented (hdec (decodeUnknown_parameter hnone hw nofun)))
  | instr i =>
    by_cases hlen : (lenBytes i.len).toNat = bs.length
    · have hi : decodeUnknown bs = .instr i := decodeUnknown_parameter hnone hw (by rintro _ ⟨⟩; exact hlen)
      exact hstep.trans ((runFetched_instr (hdec hi)).trans (if_pos hlen).symm)
    · have hill : decodeUnknown bs = .illegal := decodeUnknown_other_length hnone hw hlen
      exact hstep.trans ((runFetched_illegal (hdec hill)).trans (if_neg hlen).symm)
  | other =>
    have hrun := hstep.trans (runFetched_other (hdec (decodeUnknown_parameter hnone hw nofun)))
    have hr := otherEffect_of_not_jump (s := s.atBoundary) hnone
    refine ⟨fun hg hgw => hrun.trans (execOther_grwp hr hg hgw),
      fun hg => ⟨_, _, hrun.trans (execOther_effect hr hg), getElem_otherAddrRegs _ _, ?_, ?_⟩⟩
    · exact extract_setField_same _ _ _ (by decide)
    · exact extract_setField_other _ _ _ _ _ (.inl (by decide))

end Sys2Proof.Machine
end

section
/-!
PROOFS. Address arithmetic, the addressing modes and EXTR.U (40 R341 to R349, R370 to R373): the sums of the modes over the
integers, the indices of circular and bit-reverse addressing, and the bits of an extracted field.
-/
namespace Sys2Proof.Machine

/-! ### The index of a buffer -/

/-- The reverse exchanges bit `n` with bit `15 - n` (40 R349). -/
theorem getLsbD_reverse16 (x : Half) {n : Nat} (hn : n < 16) : (reverse16 x).getLsbD n = x.getLsbD (15 - n) := by
  rw [reverse16, BitVec.getLsbD_reverse, BitVec.getMsbD_eq_getLsbD]
  simp [hn]

theorem reverse16_reverse16 (x : Half) : reverse16 (reverse16 x) = x := by
  apply BitVec.eq_of_getLsbD_eq
  intro n hn
  rw [getLsbD_reverse16 _ hn, getLsbD_reverse16 _ (by omega), Nat.sub_sub_self (by omega)]

theorem reverse16_bitRevNext (i m : Half) : reverse16 (bitRevNext i m) = reverse16 i + reverse16 m :=
  reverse16_reverse16 _

/-- The new index of circular addressing is the low half of the corrected sum (40 R346). -/
theorem circNext_toNat (i l : Half) (off : BitVec 10) :
    ((circNext i l off).toNat : Int) =
      (if (i.toNat : Int) + off.toInt < 0 then (i.toNat : Int) + off.toInt + l.toNat
       else if (l.toNat : Int) ≤ (i.toNat : Int) + off.toInt then (i.toNat : Int) + off.toInt - l.toNat
       else (i.toNat : Int) + off.toInt) % 2 ^ 16 := by
  have low (x : Int) : ((BitVec.ofInt 16 x).toNat : Int) = x % 2 ^ 16 := by
    rw [BitVec.toNat_ofInt]
    omega
  unfold circNext
  dsimp only
  split
  · exact low _
  · split <;> exact low _

/-- An offset smaller than the buffer moves the index modulo its length: one correction is enough (40 R346). -/
theorem circNext_modulo {i l : Half} {off : BitVec 10} (hi : i.toNat < l.toNat) (ho : off.toInt.natAbs < l.toNat) :
    (circNext i l off).toNat < l.toNat ∧
      ((circNext i l off).toNat : Int) = ((i.toNat : Int) + off.toInt) % (l.toNat : Int) := by
  have hl := l.isLt
  have hnext := circNext_toNat i l off
  generalize (circNext i l off).toNat = new at *
  generalize off.toInt = o at *
  have corrected : new < l.toNat ∧ ((new : Int) = i.toNat + o + l.toNat ∨ (new : Int) = i.toNat + o - l.toNat ∨
      (new : Int) = i.toNat + o) := by
    split at hnext
    · omega
    · split at hnext <;> omega
  obtain ⟨inside, hsum⟩ := corrected
  refine ⟨inside, ?_⟩
  calc (new : Int) = (new : Int) % l.toNat := (Int.emod_eq_of_lt (by omega) (by omega)).symm
    _ = (i.toNat + o) % l.toNat := by
      rcases hsum with h | h | h
      · rw [h, Int.add_emod_right]
      · rw [h, Int.sub_emod_right]
      · rw [h]

/-- The sum of the reverses gives the index away: the reverse is an involution. -/
theorem bitRevNext_of_reverse {i m j : Half} (h : reverse16 i + reverse16 m = reverse16 j) : bitRevNext i m = j := by
  rw [bitRevNext, h, reverse16_reverse16]

/-- Settles O15: the reverse and its index, the example of 40 R349, then the two readings of the circular index. -/
theorem bufferIndices : Obligations.BufferIndices := by
  unfold Obligations.BufferIndices
  exact ⟨fun x n => getLsbD_reverse16 x, reverse16_reverse16, reverse16_bitRevNext,
    ⟨bitRevNext_of_reverse (by decide), bitRevNext_of_reverse (by decide), bitRevNext_of_reverse (by decide),
      bitRevNext_of_reverse (by decide)⟩, fun i l off => circNext_modulo, circNext_toNat⟩

/-! ### Sums of addresses -/

/-- Absolute addressing: four bits of segment, fourteen of offset (40 R341). -/
theorem absEa_eq (off : BitVec 18) :
    absEa off = (off.extractLsb' 14 4).setWidth 32 <<< 28 ||| (off.extractLsb' 0 14).setWidth 32 := by
  apply BitVec.eq_of_getLsbD_eq
  intro i hi
  simp only [absEa, BitVec.getLsbD_append, BitVec.getLsbD_or, BitVec.getLsbD_shiftLeft, BitVec.getLsbD_setWidth,
    BitVec.getLsbD_zero]
  by_cases h14 : i < 14
  · have : i < 28 := by omega
    simp [h14, this, hi]
  · have none : (off.extractLsb' 0 14).getLsbD i = false := BitVec.getLsbD_of_ge _ _ (by omega)
    by_cases h28 : i < 28
    · have : i - 14 < 14 := by omega
      simp [h14, h28, this, none]
    · have hseg : ¬ i - 14 < 14 := by omega
      have hsub : i - 14 - 14 = i - 28 := by omega
      have h32 : i - 28 < 32 := by omega
      simp [h14, h28, hseg, hsub, hi, h32, none]

/-- A signed offset is added as an integer, modulo 2^32 (40 R342, R343). -/
theorem add_signExtend {n : Nat} (x : Word) (off : BitVec n) :
    x + off.signExtend 32 = BitVec.ofInt 32 (x.toInt + off.toInt) := by
  rw [BitVec.ofInt_add, BitVec.ofInt_toInt]
  rfl

/-- The index of a buffer is added unsigned. -/
theorem add_pairIndex (x y : Word) : x + (y.extractLsb' 0 16).setWidth 32 = BitVec.ofNat 32 (x.toNat + y.toNat % 2 ^ 16) := by
  apply BitVec.eq_of_toNat_eq
  simp

/-- A pair register with its low half replaced. -/
theorem append_high_fields (w : Word) (x : Half) :
    (w.extractLsb' 16 16 ++ x) >>> 16 = w >>> 16 ∧ (w.extractLsb' 16 16 ++ x).extractLsb' 0 16 = x := by
  refine ⟨?_, BitVec.extractLsb'_append_eq_right⟩
  apply BitVec.eq_of_getLsbD_eq
  intro i hi
  simp only [BitVec.getLsbD_ushiftRight, BitVec.getLsbD_append, BitVec.getLsbD_extractLsb']
  by_cases h : i < 16
  · simp [h]
  · simp [h, BitVec.getLsbD_of_ge w (16 + i) (by omega)]

/-- Settles O16: the modes one by one, then the bytes and range-protected addresses of all of them. -/
theorem addressingModes : Obligations.AddressingModes := by
  unfold Obligations.AddressingModes
  intro s b off long short
  refine ⟨⟨absEa_eq short, rfl⟩, ⟨add_signExtend _ _, rfl⟩, ⟨add_signExtend _ _, rfl⟩, ⟨add_signExtend _ _, rfl⟩,
    ⟨rfl, congrArg (fun v => some (b, v)) (add_signExtend _ _)⟩, ⟨add_pairIndex _ _, _, rfl, append_high_fields _ _⟩,
    ⟨add_pairIndex _ _, _, rfl, append_high_fields _ _⟩, fun k => ⟨?_, rfl, rfl⟩⟩
  intro m hm
  simp only [List.mem_cons, List.not_mem_nil, or_false] at hm
  rcases hm with rfl | rfl | rfl | rfl | rfl | rfl <;> exact ⟨rfl, rfl⟩

/-! ### LEA, ADDSC.A and ADDSC.AT -/

theorem add_shiftLeft (x y : Word) (n : Nat) : x + y <<< n = BitVec.ofNat 32 (x.toNat + y.toNat * 2 ^ n) := by
  apply BitVec.eq_of_toNat_eq
  simp [Nat.shiftLeft_eq]

/-- The signed shift of ADDSC.AT divides by eight (40 R372). -/
theorem add_sshiftRight_three (x y : Word) : x + y.sshiftRight 3 = BitVec.ofInt 32 (x.toInt + y.toInt / 8) := by
  rw [BitVec.ofInt_add, BitVec.ofInt_toInt, BitVec.sshiftRight_eq, Int.shiftRight_eq_div_pow]
  rfl

/-- The two low bits are cleared and the others kept. -/
theorem clear_low_two (x : Word) :
    (x &&& 0xFFFFFFFC).extractLsb' 0 2 = 0 ∧ (x &&& 0xFFFFFFFC).extractLsb' 2 30 = x.extractLsb' 2 30 := by
  have ones : (0xFFFFFFFC : Word).extractLsb' 2 30 = BitVec.allOnes 30 := by decide
  have zeros : (0xFFFFFFFC : Word).extractLsb' 0 2 = 0 := by decide
  rw [BitVec.extractLsb'_and, BitVec.extractLsb'_and, ones, zeros, BitVec.and_allOnes]
  exact ⟨BitVec.and_zero, rfl⟩

/-- An instruction that writes one address register alone and may. -/
theorem finish_putAddress {s : State} {c : AReg} (len : Len) (v : Word) (hg : isGlobal c = true → pswGw s.psw = true) :
    finish s (do grwp s (isGlobal c); .ok (advance len (s.setA c v))) =
      .next { s with a := s.a.set c v, pc := s.pc + lenBytes len, completed := true } := by
  rw [(grwp_eq_ok s _ ()).mpr hg, ok_bind, finish_ok]
  rfl

/-- Writing a global address register without PSW.GW is GRWP (60 R684). -/
theorem finish_putAddress_grwp {s : State} {c : AReg} (t : State) (hc : isGlobal c = true) (hg : s.psw.getLsbD 8 = false) :
    finish s (do grwp s (isGlobal c); .ok t) = .next (enterTrap 1 7 s.pc s) := by
  have hgw : pswGw s.psw = false := hg
  have guard : grwp s (isGlobal c) = .error (.trap .grwp) := by simp [grwp, hc, hgw]
  rw [guard, error_bind, finish_trap]
  rfl

theorem isGlobal_iff (c : AReg) : isGlobal c = true ↔ c = 0 ∨ c = 1 ∨ c = 8 ∨ c = 9 := by
  simp [isGlobal, or_assoc]

/-- Settles O13: the value each form writes, then the guard they share. -/
theorem addressArithmetic : Obligations.AddressArithmetic := by
  unfold Obligations.AddressArithmetic
  refine ⟨fun len c b a n m s hg => ⟨?_, ?_, ?_⟩, fun len c b a n m s hc hg => ?_⟩
  · refine (finish_putAddress len (modeEa s (leaMode m)) hg).trans ?_
    cases m with
    | abs off => simp only [leaMode, modeEa, absEa_eq]
    | base b off => simp only [leaMode, modeEa, add_signExtend]
    | baseLong b off => simp only [leaMode, modeEa, add_signExtend]
  · exact add_shiftLeft (s.ar b) (s.dr a) n.toNat ▸ finish_putAddress len _ hg
  · exact ⟨_, finish_putAddress len _ hg, add_sshiftRight_three (s.ar b) (s.dr a) ▸ clear_low_two _⟩
  · have hglobal := (isGlobal_iff c).mpr hc
    exact ⟨finish_putAddress_grwp _ hglobal hg, finish_putAddress_grwp _ hglobal hg, finish_putAddress_grwp _ hglobal hg⟩

/-! ### EXTR.U -/

/-- The mask of the `width` lowest bits; the shift by 32 leaves 0, and 0 - 1 is all ones. -/
theorem toNat_lowMask {width : Nat} (hw : width ≤ 32) : ((1#32 <<< width) - 1).toNat = 2 ^ width - 1 := by
  rcases Nat.lt_or_eq_of_le hw with h | rfl
  · have below : 2 ^ width < 2 ^ 32 := Nat.pow_lt_pow_right (by decide) h
    have pos : 0 < 2 ^ width := Nat.two_pow_pos width
    have shifted : (1#32 <<< width).toNat = 2 ^ width := by
      rw [BitVec.toNat_shiftLeft, BitVec.toNat_one (by decide), Nat.one_shiftLeft, Nat.mod_eq_of_lt below]
    rw [BitVec.toNat_sub, shifted]
    show (2 ^ 32 - 1 + 2 ^ width) % 2 ^ 32 = _
    omega
  · rfl

/-- The bits of an extracted field: those of the source from `pos` up, `width` of them (40 R373). -/
theorem getLsbD_extractField (v : Word) {pos width : Nat} (hw : width ≤ 32) (k : Nat) :
    (extractField v pos width).getLsbD k = (decide (k < width) && v.getLsbD (pos + k)) := by
  have mask : ((1#32 <<< width) - 1).getLsbD k = decide (k < width) := by
    rw [BitVec.getLsbD, toNat_lowMask hw, Nat.testBit_two_pow_sub_one]
  rw [extractField, BitVec.getLsbD_and, BitVec.getLsbD_ushiftRight, mask, Bool.and_comm]

/-- The whole register. -/
theorem extractField_all (v : Word) : extractField v 0 32 = v := by
  apply BitVec.eq_of_getLsbD_eq
  intro k hk
  rw [getLsbD_extractField v (Nat.le_refl 32)]
  simp [hk]

section extrU

variable {s : State} {f : BitField} (len : Len) (c a : DReg)

theorem exec_extrU_defined (ho : fieldOddPair f = false) (h1 : 1 ≤ (fieldOf s f).2)
    (h2 : (fieldOf s f).1 + (fieldOf s f).2 ≤ 32) :
    exec (.extrU len c a f) s = .next { s with
      d := s.d.set c (extractField (s.dr a) (fieldOf s f).1 (fieldOf s f).2), pc := s.pc + lenBytes len,
      completed := true } := by
  have hd : fieldDefined (fieldOf s f).1 (fieldOf s f).2 = true := by simp [fieldDefined, h1, h2]
  simp only [exec, execExtrU, ho, opd, raiseIf_false, ok_bind, hd, if_true, finish_ok]
  rfl

theorem exec_extrU_undefined (ho : fieldOddPair f = false)
    (h : ¬ (1 ≤ (fieldOf s f).2 ∧ (fieldOf s f).1 + (fieldOf s f).2 ≤ 32)) :
    exec (.extrU len c a f) s = .next { s with
      d := s.d.set c (Config.freeWord s.freeCount 0), freeCount := s.freeCount + 1, pc := s.pc + lenBytes len,
      completed := true } := by
  have hd : fieldDefined (fieldOf s f).1 (fieldOf s f).2 = false := by simpa [fieldDefined] using h
  simp only [exec, execExtrU, ho, opd, raiseIf_false, ok_bind, hd, finish_ok]
  rfl

/-- A field that is the whole register moves it. -/
theorem exec_extrU_all (ho : fieldOddPair f = false) (hf : fieldOf s f = (0, 32)) :
    exec (.extrU len c a f) s = .next { s with
      d := s.d.set c (s.dr a), pc := s.pc + lenBytes len, completed := true } := by
  rw [exec_extrU_defined len c a ho (by simp [hf]) (by simp [hf]), hf, extractField_all]

theorem exec_extrU_odd (ho : fieldOddPair f = true) : exec (.extrU len c a f) s = .next (enterTrap 2 3 s.pc s) := by
  simp only [exec, execExtrU, ho, opd, raiseIf_true, error_bind, finish_trap]
  rfl

end extrU

/-- Settles O14: the guard, the field by its bits, the two forms of the whole register, and the free value. -/
theorem bitFieldExtract : Obligations.BitFieldExtract := by
  unfold Obligations.BitFieldExtract
  intro len c a f s
  refine ⟨exec_extrU_odd len c a, fun ho h1 h2 => ⟨_, exec_extrU_defined len c a ho h1 h2, ?_⟩,
    exec_extrU_all len c a rfl rfl, fun e he h0 h32 => ?_, fun ho h => ⟨_, exec_extrU_undefined len c a ho h⟩⟩
  · exact getLsbD_extractField _ (by omega)
  · have hf : fieldOf s (.pair e) = (0, 32) := by simp [fieldOf, h0, h32]
    exact exec_extrU_all len c a (by simp [fieldOddPair, oddPair, he]) hf

end Sys2Proof.Machine
end

section
/-!
PROOFS. The loads, stores and read-modify-writes whose access is in order (40 R350, R354 to R367): how each shared shape ends,
the free choices of LD.A, LD.DA, ST.A and ST.DA, and the whole next state of every instruction.
-/
namespace Sys2Proof.Machine

/-! ### How the shapes end where nothing is wrong -/

theorem oddPair_eq_false {r : Fin 16} (h : r.val % 2 = 0) : oddPair r = false := by simp [oddPair, h]

section shapes

variable {s : State} {m : Mode} {kind : AccessKind} {odd : Bool} (len : Len)

theorem finish_loadShape (global : Bool) (put : List Byte → State → State) (ho : odd = false)
    (hg : global = true → pswGw s.psw = true) (hm : ModeOk s m) (hx : AccessOk s m kind) :
    finish s (loadShape len m kind odd global put s) = .next
      { advance len (put (physRead s (accessAddrs s m kind.size)).1
          (applyUpdate (physRead s (accessAddrs s m kind.size)).2 (modeUpdate s m))) with completed := true } := by
  rw [(loadShape_eq_ok len m kind odd global put s _).mpr ⟨ho, hg, hm, hx, rfl⟩, finish_ok]

theorem storeShape_ok (bs : List Byte) (ho : odd = false) (hm : ModeOk s m) (hx : AccessOk s m kind) :
    storeShape len m kind odd bs s =
      .ok (advance len (applyUpdate (physWrite s (accessAddrs s m kind.size) bs) (modeUpdate s m))) :=
  (storeShape_eq_ok len m kind odd bs s _).mpr ⟨ho, hm, hx, rfl⟩

theorem finish_rmwShape (new : List Byte → List Byte) (put : List Byte → State → State) (ho : odd = false)
    (hm : ModeOk s m) (hx : AccessOk s m kind) :
    finish s (rmwShape len m kind odd new put s) = .next
      { advance len (put (physRead s (accessAddrs s m kind.size)).1
          (applyUpdate (physWrite (physRead s (accessAddrs s m kind.size)).2 (accessAddrs s m kind.size)
            (new (physRead s (accessAddrs s m kind.size)).1)) (modeUpdate s m))) with completed := true } := by
  rw [(rmwShape_eq_ok len m kind odd new put s _).mpr ⟨ho, hm, hx, rfl⟩, finish_ok]

end shapes

/-- A mode's update leaves everything but the address registers alone. -/
@[simp] theorem applyUpdate_d (s : State) (u : Option (Fin 16 × Word)) : (applyUpdate s u).d = s.d := by
  rw [applyUpdate_eq]

@[simp] theorem applyUpdate_pc (s : State) (u : Option (Fin 16 × Word)) : (applyUpdate s u).pc = s.pc := by
  rw [applyUpdate_eq]

/-! ### The data registers -/

/-- A load into one data register: the mode's update, the register and the pc. -/
theorem finish_dataLoad {s : State} {m : Mode} {kind : AccessKind} (len : Len) (a : DReg) (value : List Byte → Word)
    (hm : ModeOk s m) (hx : AccessOk s m kind) :
    finish s (loadShape len m kind false false (fun bs t => t.setD a (value bs)) s) = .next
      { applyUpdate (physRead s (accessAddrs s m kind.size)).2 (modeUpdate s m) with
        d := s.d.set a (value (physRead s (accessAddrs s m kind.size)).1), pc := s.pc + lenBytes len, completed := true } := by
  rw [finish_loadShape len false _ rfl nofun hm hx]
  simp only [advance, State.setD, applyUpdate_d, applyUpdate_pc, physRead_d, physRead_pc]

/-- Word `k` of a block is made of its bytes `4 * k` to `4 * k + 3`, the first the lowest. -/
theorem wordAt_eq (bs : List Byte) (k : Nat) : wordAt bs k =
    bs.getD (4 * k + 3) 0 ++ bs.getD (4 * k + 2) 0 ++ bs.getD (4 * k + 1) 0 ++ bs.getD (4 * k) 0 := by
  simp only [wordAt, wordOf, List.getD_eq_getElem?_getD, List.getElem?_drop, Nat.add_zero]

theorem exec_ldD {s : State} {a : DReg} {m : Mode} (len : Len) (ha : a.val % 2 = 0) (hm : ModeOk s m)
    (hx : AccessOk s m .loadD) :
    exec (.ldD len a m) s = .next { applyUpdate (physRead s (accessAddrs s m 8)).2 (modeUpdate s m) with
      d := (s.d.set a (wordAt (physRead s (accessAddrs s m 8)).1 0)).set (pairOdd a)
        (wordAt (physRead s (accessAddrs s m 8)).1 1), pc := s.pc + lenBytes len, completed := true } := by
  refine (finish_loadShape len false _ (oddPair_eq_false ha) nofun hm hx).trans ?_
  simp only [advance, State.setD, applyUpdate_d, applyUpdate_pc, physRead_d, physRead_pc]
  rfl

/-- Settles O23: each load is one of the two shapes above, with the value it makes of the bytes read. -/
theorem dataLoads : Obligations.DataLoads := by
  unfold Obligations.DataLoads
  intro len a m s hm
  refine ⟨fun k hk => physRead_memory hk, fun hx => ⟨?_, ?_⟩, fun hx => ⟨?_, ?_⟩, fun hx => ?_, fun ha hx => ?_⟩
  · exact finish_dataLoad len a (fun bs => (byteOf bs).signExtend 32) hm hx
  · exact finish_dataLoad len a (fun bs => (byteOf bs).setWidth 32) hm hx
  · exact finish_dataLoad len a (fun bs => (halfOf bs).signExtend 32) hm hx
  · exact finish_dataLoad len a (fun bs => (halfOf bs).setWidth 32) hm hx
  · exact finish_dataLoad len a wordOf hm hx
  · rw [exec_ldD len ha hm hx, wordAt_eq, wordAt_eq]

/-! ### The address registers -/

/-- The loaded register holds the loaded word, or, where the mode updates it, what it holds already; a free value is used up
in that case (40 R350, log 18). -/
theorem putAddr_eq (m : Mode) (r : Fin 16) (v : Word) (t : State) :
    ∃ w, (w = v ∨ (modeTarget m = some r ∧ w = t.ar r)) ∧
      putAddr m r v t = { t with a := t.a.set r w, freeCount := t.freeCount + (if modeTarget m = some r then 1 else 0) } := by
  unfold putAddr
  split
  next ht =>
    split
    · refine ⟨t.ar r, .inr ⟨ht, rfl⟩, ?_⟩
      simp [useFree, State.ar]
    · exact ⟨v, .inl rfl, rfl⟩
  next ht => exact ⟨v, .inl rfl, rfl⟩

/-- The two registers of a pair differ. -/
theorem pairOdd_ne (r : Fin 16) : pairOdd r ≠ r := by revert r; decide

/-- Both registers of a pair loaded: at most one of them is the one the mode updates. -/
theorem putAddr_pair_eq (m : Mode) (r : Fin 16) (x y : Word) (t : State) :
    ∃ v w, (v = x ∨ (modeTarget m = some r ∧ v = t.ar r)) ∧
      (w = y ∨ (modeTarget m = some (pairOdd r) ∧ w = t.ar (pairOdd r))) ∧
      putAddr m (pairOdd r) y (putAddr m r x t) = { t with
        a := (t.a.set r v).set (pairOdd r) w,
        freeCount := t.freeCount + (if modeTarget m = some r ∨ modeTarget m = some (pairOdd r) then 1 else 0) } := by
  obtain ⟨v, hv, heven⟩ := putAddr_eq m r x t
  obtain ⟨w, hw, hodd⟩ := putAddr_eq m (pairOdd r) y (putAddr m r x t)
  have other : (putAddr m r x t).ar (pairOdd r) = t.ar (pairOdd r) := by
    rw [heven]
    exact ar_setA_other t r (pairOdd r) v (pairOdd_ne r)
  rw [other] at hw
  refine ⟨v, w, hv, hw, hodd.trans ?_⟩
  rw [heven]
  by_cases h : modeTarget m = some r
  · simp [h, (pairOdd_ne r).symm]
  · simp [h]

/-- A load that changes address registers and the count of free values alone. -/
theorem finish_addrLoad {s : State} {m : Mode} {kind : AccessKind} {odd global : Bool} {put : List Byte → State → State}
    {regs : Vector Word 16} {n : Nat} (len : Len) (ho : odd = false) (hg : global = true → pswGw s.psw = true)
    (hm : ModeOk s m) (hx : AccessOk s m kind)
    (hput : put (physRead s (accessAddrs s m kind.size)).1
        (applyUpdate (physRead s (accessAddrs s m kind.size)).2 (modeUpdate s m)) =
      { applyUpdate (physRead s (accessAddrs s m kind.size)).2 (modeUpdate s m) with a := regs, freeCount := n }) :
    finish s (loadShape len m kind odd global put s) = .next
      { applyUpdate (physRead s (accessAddrs s m kind.size)).2 (modeUpdate s m) with
        a := regs, freeCount := n, pc := s.pc + lenBytes len, completed := true } := by
  rw [finish_loadShape len global put ho hg hm hx, hput]
  simp only [advance, applyUpdate_pc, physRead_pc]

/-- Settles O24: LD.A and LD.DA are loads with the destinations of `putAddr_eq` and `putAddr_pair_eq`. -/
theorem addressLoads : Obligations.AddressLoads := by
  unfold Obligations.AddressLoads
  intro len a m s hm t byte holds
  refine ⟨fun hg hx => ?_, fun ha hg hx => ?_⟩
  · obtain ⟨w, hw, hput⟩ := putAddr_eq m a (wordOf (physRead s (accessAddrs s m 4)).1) (t 4)
    exact ⟨w, hw, finish_addrLoad len rfl hg hm hx hput⟩
  · obtain ⟨v, w, hv, hw, hput⟩ := putAddr_pair_eq m a (wordAt (physRead s (accessAddrs s m 8)).1 0)
      (wordAt (physRead s (accessAddrs s m 8)).1 1) (t 8)
    rw [wordAt_eq] at hv hw
    exact ⟨v, w, hv, hw, finish_addrLoad len (oddPair_eq_false ha) hg hm hx hput⟩

/-! ### Stores -/

/-- A store: the bytes at the addresses of the access, the mode's update and the pc. -/
theorem finish_store {s : State} {m : Mode} {kind : AccessKind} {odd : Bool} (len : Len) (bs : List Byte)
    (ho : odd = false) (hm : ModeOk s m) (hx : AccessOk s m kind) :
    finish s (storeShape len m kind odd bs s) = .next
      { applyUpdate (physWrite s (accessAddrs s m kind.size) bs) (modeUpdate s m) with
        pc := s.pc + lenBytes len, completed := true } := by
  rw [storeShape_ok len bs ho hm hx]
  simp only [finish_ok, advance, applyUpdate_pc, physWrite_pc]

/-- A store of address registers, which may use up free values. -/
theorem finish_addrStore {s : State} {m : Mode} {kind : AccessKind} {odd : Bool} {use : State → State} {n : Nat} (len : Len)
    (bs : List Byte) (huse : ∀ t, use t = { t with freeCount := t.freeCount + n }) (ho : odd = false) (hm : ModeOk s m)
    (hx : AccessOk s m kind) :
    finish s ((storeShape len m kind odd bs s).map use) = .next
      { applyUpdate (physWrite s (accessAddrs s m kind.size) bs) (modeUpdate s m) with
        freeCount := (applyUpdate (physWrite s (accessAddrs s m kind.size) bs) (modeUpdate s m)).freeCount + n
        pc := s.pc + lenBytes len, completed := true } := by
  rw [storeShape_ok len bs ho hm hx]
  simp only [Except.map, finish_ok, huse, advance, applyUpdate_pc, physWrite_pc]

/-- The address register stored holds its own value, or the one the mode updates it to (40 R350, log 18). -/
theorem storedAddr_cases (s : State) (m : Mode) (r : Fin 16) :
    storedAddr s m r = s.ar r ∨ modeUpdate s m = some (r, storedAddr s m r) := by
  unfold storedAddr
  split
  next u v hu =>
    by_cases h : u = r
    · subst h
      cases freeChoice s <;> simp [hu]
    · simp [h]
  next => exact .inl rfl

theorem useStored_eq (m : Mode) (r : Fin 16) (t : State) :
    useStored m r t = { t with freeCount := t.freeCount + (if modeTarget m = some r then 1 else 0) } := by
  unfold useStored
  split <;> rfl

/-- Both registers of a pair stored: at most one of them is the one the mode updates. -/
theorem useStored_pair_eq (m : Mode) (r : Fin 16) (t : State) :
    useStored m r (useStored m (pairOdd r) t) = { t with
      freeCount := t.freeCount + (if modeTarget m = some r ∨ modeTarget m = some (pairOdd r) then 1 else 0) } := by
  rw [useStored_eq, useStored_eq]
  by_cases h : modeTarget m = some r
  · simp [h, (pairOdd_ne r).symm]
  · simp [h]

theorem halfBytes_low (w : Word) : halfBytes (w.extractLsb' 0 16) = [w.extractLsb' 0 8, w.extractLsb' 8 8] := by
  have low : (w.extractLsb' 0 16).extractLsb' 0 8 = w.extractLsb' 0 8 := by ext i hi; simp
  have high : (w.extractLsb' 0 16).extractLsb' 8 8 = w.extractLsb' 8 8 := by ext i hi; simp
  rw [halfBytes, low, high]

/-- Settles O25: the stores of data registers, then those of address registers with the values of `storedAddr_cases`. -/
theorem stores : Obligations.Stores := by
  unfold Obligations.Stores
  intro len a m s hm after bytes stored
  refine ⟨fun hx => ?_, fun hx => ?_, fun hx => ?_, fun ha hx => ?_, fun hx => ?_, fun ha hx => ?_⟩
  · exact finish_store len _ rfl hm hx
  · have low : halfBytes ((s.dr a).extractLsb' 0 16) = (bytes (s.dr a)).take 2 := halfBytes_low (s.dr a)
    exact low ▸ finish_store len _ rfl hm hx
  · exact finish_store len _ rfl hm hx
  · exact finish_store len _ (oddPair_eq_false ha) hm hx
  · exact ⟨_, storedAddr_cases s m a, finish_addrStore len _ (useStored_eq m a) rfl hm hx⟩
  · exact ⟨_, _, storedAddr_cases s m a, storedAddr_cases s m (pairOdd a),
      finish_addrStore len _ (useStored_pair_eq m a) (oddPair_eq_false ha) hm hx⟩

/-! ### Read-modify-write -/

/-- A bit of the merge is the data's where the mask has it (40 R365). -/
theorem getLsbD_maskMerge (old data mask : Word) (j : Nat) :
    (maskMerge old data mask).getLsbD j = if mask.getLsbD j then data.getLsbD j else old.getLsbD j := by
  simp only [maskMerge, BitVec.getLsbD_or, BitVec.getLsbD_and, BitVec.getLsbD_not]
  by_cases hj : j < 32
  · cases mask.getLsbD j <;> simp [hj]
  · simp [hj, BitVec.getLsbD_of_ge _ j (Nat.le_of_not_lt hj)]

/-- ST.T changes one bit of the byte (40 R367). -/
theorem getLsbD_byteWithBit (x : Byte) (k : BitVec 3) (b : Bool) {j : Nat} (hj : j < 8) :
    (byteWithBit x k b).getLsbD j = if j = k.toNat then b else x.getLsbD j := by
  simp only [byteWithBit, BitVec.getLsbD_or, BitVec.getLsbD_and, BitVec.getLsbD_not, BitVec.getLsbD_shiftLeft,
    BitVec.getLsbD_setWidth, BitVec.getLsbD_ofBool, BitVec.getLsbD_one]
  rcases Nat.lt_trichotomy j k.toNat with h | rfl | h
  · simp [hj, h, Nat.ne_of_lt h]
  · simp [hj]
  · have hne : j ≠ k.toNat := by omega
    have hsub : j - k.toNat ≠ 0 := by omega
    simp [hj, hne, hsub]

/-- A read-modify-write that keeps the data registers: the bytes written back, the mode's update and the pc. -/
theorem finish_rmw {s : State} {m : Mode} {kind : AccessKind} {odd : Bool} (len : Len) (new : List Byte → List Byte)
    (ho : odd = false) (hm : ModeOk s m) (hx : AccessOk s m kind) :
    finish s (rmwShape len m kind odd new (fun _ t => t) s) = .next
      { applyUpdate (physWrite (physRead s (accessAddrs s m kind.size)).2 (accessAddrs s m kind.size)
          (new (physRead s (accessAddrs s m kind.size)).1)) (modeUpdate s m) with
        pc := s.pc + lenBytes len, completed := true } := by
  rw [finish_rmwShape len new _ ho hm hx]
  simp only [advance, applyUpdate_pc, physWrite_pc, physRead_pc]

/-- SWAP.W: the word of D[a] written, the word read in D[a]. -/
theorem exec_swapW {s : State} {m : Mode} (len : Len) (a : DReg) (hm : ModeOk s m) (hx : AccessOk s m .rmw) :
    exec (.swapW len a m) s = .next
      { applyUpdate (physWrite (physRead s (accessAddrs s m 4)).2 (accessAddrs s m 4) (wordBytes (s.dr a)))
          (modeUpdate s m) with
        d := s.d.set a (wordOf (physRead s (accessAddrs s m 4)).1), pc := s.pc + lenBytes len, completed := true } := by
  refine (finish_rmwShape len (fun _ => wordBytes (s.dr a)) (fun bs t => t.setD a (wordOf bs)) rfl hm hx).trans ?_
  simp only [advance, State.setD, applyUpdate_d, applyUpdate_pc, physWrite_d, physWrite_pc, physRead_d, physRead_pc]
  rfl

/-- Settles O26: each instruction is the shape, with the bytes it writes back. -/
theorem readModifyWrites : Obligations.ReadModifyWrites := by
  unfold Obligations.ReadModifyWrites
  intro len a m off k b s pas old bytes after
  refine ⟨fun hm hx => ⟨fun ha => ⟨maskMerge old (s.dr a) (s.dr (pairOdd a)), ?_, ?_⟩, ?_⟩, fun hx =>
    ⟨byteWithBit (byteOf (physRead s (accessAddrs s (.abs off) 1)).1) k b, ?_, ?_⟩⟩
  · exact finish_rmw len (fun bs => wordBytes (maskMerge (wordOf bs) (s.dr a) (s.dr (pairOdd a)))) (oddPair_eq_false ha) hm hx
  · exact getLsbD_maskMerge old (s.dr a) (s.dr (pairOdd a))
  · exact exec_swapW len a hm hx
  · exact finish_rmw len (fun bs => [byteWithBit (byteOf bs) k b]) rfl ⟨rfl, nofun⟩ hx
  · exact fun j hj => getLsbD_byteWithBit _ k b hj

end Sys2Proof.Machine
end

section
/-!
PROOFS. The integer and the assertion instructions (41 R401 to R412): the flags of an addition, the words that compares and
counts write, the bits RSTV clears, and the entry of the traps that TRAPV and TRAPSV raise.
-/
namespace Sys2Proof.Machine

/-! ### The handler of a trap -/

/-- The stack pointer at entry is A[10] alone. -/
theorem getElem_entryStack_other (s : State) (a : Vector Word 16) {r : Fin 16} (hr : r ≠ 10) :
    (entryStack s a)[r] = a[r] := by
  have hne : (10 : Nat) ≠ r := fun e => hr (Fin.ext e.symm)
  unfold entryStack
  split
  · rfl
  · exact Vector.getElem_set_ne (by decide) r.isLt hne

/-- What the handler of a trap finds where the save does not fail (60 R670). -/
theorem enterTrap_handler (tcn : BitVec 3) (tin : BitVec 8) (ra : Word) {s : State} (h : saveFails s = false) :
    (enterTrap tcn tin ra s).ar 11 = ra ∧ (enterTrap tcn tin ra s).dr 15 = tin.setWidth 32 ∧
      (enterTrap tcn tin ra s).psw = entryPsw s.psw := by
  rcases enterTrap_cases tcn tin ra s with ⟨fails, -⟩ | ⟨-, entered⟩
  · rw [h] at fails
    cases fails
  · rw [entered]
    exact ⟨(getElem_entryStack_other s _ (by decide)).trans (Vector.getElem_set_self (by decide)),
      Vector.getElem_set_self (by decide), rfl⟩

/-- The entry to a handler keeps PSW from bit 14 up, the flags with it. -/
theorem extract_entryPsw (psw : Word) {lo n : Nat} (h : 14 ≤ lo) : (entryPsw psw).extractLsb' lo n = psw.extractLsb' lo n :=
  extract_setField_other _ _ _ _ _ (.inr h)

/-! ### TRAPV and TRAPSV -/

theorem finish_raiseIf_of_true {b : Bool} (hb : b = true) (s t : State) (p : Trap) :
    finish s (do raiseIf b p; .ok t) = .next (takeTrap p s) := by
  rw [hb, raiseIf_true, error_bind, finish_trap]

theorem finish_raiseIf_of_false {b : Bool} (hb : b = false) (s t : State) (p : Trap) :
    finish s (do raiseIf b p; .ok t) = .next { t with completed := true } := by
  rw [hb, raiseIf_false, ok_bind, finish_ok]

/-- Settles O12: each instruction is its guard, and the entry of a trap keeps V and SV. -/
theorem assertionInstructions : Obligations.AssertionInstructions := by
  unfold Obligations.AssertionInstructions
  intro len s trap
  have entered (tin : BitVec 8) : trap tin (enterTrap 5 tin s.pc s) := by
    refine ⟨rfl, fun hsave => ?_⟩
    obtain ⟨ha, hd, hpsw⟩ := enterTrap_handler 5 tin s.pc hsave
    exact ⟨ha, hd, hpsw ▸ extract_entryPsw s.psw (by decide)⟩
  exact ⟨fun hv => ⟨_, finish_raiseIf_of_true hv s _ .ovf, entered 1⟩,
    fun hv => finish_raiseIf_of_false hv s _ .ovf,
    fun hsv => ⟨_, finish_raiseIf_of_true hsv s _ .sovf, entered 2⟩,
    fun hsv => finish_raiseIf_of_false hsv s _ .sovf⟩

/-! ### Addition with carry -/

/-- The sum of an addition, modulo 2^32 (41 R402, R403). -/
theorem addSum_eq (x y : Word) (cin : Bool) : addSum x y cin = BitVec.ofNat 32 (x.toNat + y.toNat + cin.toNat) := by
  have carry : (BitVec.ofBool cin).setWidth 32 = BitVec.ofNat 32 cin.toNat := by cases cin <;> rfl
  simp [addSum, carry, BitVec.ofNat_add]

/-- The flags of an addition are those of R401 to R403. -/
theorem addFlags_set (psw x y : Word) (cin : Bool) : AddFlagsSet psw (addFlags psw x y cin) x y cin := by
  obtain ⟨hc, hv, hsv, hav, hsav, hrest⟩ := setArith_flags psw _ _ _ _ _
  exact {
    carry := hc
    overflow := by
      refine hv.trans ?_
      rw [← Bool.decide_or]
      exact decide_eq_decide.mpr (by omega)
    sticky := hsv.trans (congrArg _ hv.symm)
    advance := hav
    stickyAdvance := hsav.trans (congrArg _ hav.symm)
    rest := hrest }

/-- What ADDX and ADDC share: the sum, the flags, and the pc. -/
theorem finish_add (len : Len) (c : DReg) (x y : Word) (cin : Bool) (s : State) :
    ∃ p, finish s (.ok (advance len { s.setD c (addSum x y cin) with psw := addFlags s.psw x y cin })) = .next
        { s with d := s.d.set c (BitVec.ofNat 32 (x.toNat + y.toNat + cin.toNat)), psw := p, pc := s.pc + lenBytes len,
                 completed := true } ∧
      AddFlagsSet s.psw p x y cin := by
  rw [addSum_eq]
  exact ⟨_, rfl, addFlags_set s.psw x y cin⟩

/-! ### Compares and counts -/

/-- An instruction that writes one data register alone. -/
theorem finish_putData (len : Len) (c : DReg) (v : Word) (s : State) : finish s (.ok (advance len (s.setD c v))) =
    .next { s with d := s.d.set c v, pc := s.pc + lenBytes len, completed := true } := rfl

theorem boolWord_eq (b : Bool) : boolWord b = if b then 1 else 0 := by cases b <;> rfl

/-- A compare writes 1 or 0 to the whole register (41 R412). -/
theorem finish_compare (len : Len) (c : DReg) (s : State) {b b' : Bool} (h : b = b') :
    finish s (.ok (advance len (s.setD c (boolWord b)))) =
      .next { s with d := s.d.set c (if b' then 1 else 0), pc := s.pc + lenBytes len, completed := true } := by
  rw [h, boolWord_eq, finish_putData]

/-- The bits of a run, and the bit that ends it where it does not reach the last. -/
theorem leadingRun_spec (v : Word) (b : Bool) (n : Nat) :
    leadingRun v b n ≤ n ∧ (∀ k, k < leadingRun v b n → v.getLsbD (n - 1 - k) = b) ∧
      (leadingRun v b n < n → v.getLsbD (n - 1 - leadingRun v b n) ≠ b) := by
  induction n with
  | zero => exact ⟨Nat.le_refl 0, nofun, nofun⟩
  | succ n ih =>
    obtain ⟨hle, hrun, hend⟩ := ih
    rw [leadingRun]
    split
    next htop =>
      refine ⟨Nat.succ_le_succ hle, fun k hk => ?_, fun hlt => ?_⟩
      · cases k with
        | zero => exact htop
        | succ k =>
          rw [show n + 1 - 1 - (k + 1) = n - 1 - k by omega]
          exact hrun k (Nat.lt_of_succ_lt_succ hk)
      · rw [show n + 1 - 1 - (leadingRun v b n + 1) = n - 1 - leadingRun v b n by omega]
        exact hend (Nat.lt_of_succ_lt_succ hlt)
    next htop => exact ⟨Nat.zero_le _, nofun, fun _ => htop⟩

/-! ### RSTV -/

/-- RSTV clears PSW[30:27] (41 R407). -/
theorem getLsbD_clearOverflow (psw : Word) (k : Nat) :
    (clearOverflow psw).getLsbD k = (psw.getLsbD k && decide (k < 27 ∨ k = 31)) := by
  rw [clearOverflow, getLsbD_setField]
  split
  next inside => simp [show ¬ (k < 27 ∨ k = 31) by omega]
  next outside =>
    by_cases h32 : k < 32
    · simp [show k < 27 ∨ k = 31 by omega]
    · simp [BitVec.getLsbD_of_ge psw k (by omega)]

/-- Settles O11: the additions, the compares, the counts as runs, then CMOV and RSTV. -/
theorem integerInstructions : Obligations.IntegerInstructions := by
  unfold Obligations.IntegerInstructions
  refine ⟨fun len c a op s => ⟨?_, ?_⟩, ?_, ?_, fun len a op s => ?_,
    fun len s => ⟨clearOverflow s.psw, rfl, getLsbD_clearOverflow s.psw⟩⟩
  · exact finish_add len c (s.dr a) (s.op2 op) false s
  · exact finish_add len c (s.dr a) (s.op2 op) (flagC s.psw) s
  · intro len c a op s x y put
    have same : s.dr a = s.op2 op ↔ x = y := BitVec.toInt_inj.symm
    exact ⟨finish_compare len c s (decide_eq_decide.mpr same),
      finish_compare len c s (decide_eq_decide.mpr (not_congr same)), finish_compare len c s rfl,
      finish_compare len c s rfl⟩
  · intro len c a s put
    refine ⟨?_, ?_, ?_⟩
    · obtain ⟨hle, hrun, hend⟩ := leadingRun_spec (s.dr a) true 32
      exact ⟨_, hle, rfl, hrun, fun hlt => Bool.not_eq_true _ ▸ hend hlt⟩
    · obtain ⟨hle, hrun, hend⟩ := leadingRun_spec (s.dr a) false 32
      exact ⟨_, hle, rfl, hrun, fun hlt => Bool.not_eq_false _ ▸ hend hlt⟩
    · obtain ⟨hle, hrun, hend⟩ := leadingRun_spec (s.dr a) ((s.dr a).getLsbD 31) 31
      exact ⟨_, hle, rfl, hrun, hend⟩
  · simp only [exec, execCmov]
    by_cases h : s.dr 15 = 0
    · rw [if_neg (not_not_intro h), if_pos h, finish_ok]
      rfl
    · rw [if_pos h, if_neg h, finish_putData]

end Sys2Proof.Machine
end

section
/-!
PROOFS. The calls, the returns and the context instructions (42 R443 to R460): when a save or a restore can be completed, the
targets, the call depth counter, and the registers that a context holds.
-/
namespace Sys2Proof.Machine

/-! ### Saves and restores that can be completed -/

/-- A save can be completed where the free list is not empty and its head may be read: a save asks for what a restore does
(log 26). -/
theorem saveFails_eq_false_iff {s : State} :
    saveFails s = false ↔ ctxPtr s.fcx ≠ 0 ∧ CsaReadable s (csaEa (ctxPtr s.fcx)) := by
  simp only [saveFails, Bool.or_eq_false_iff, decide_eq_false_iff_not, Bool.and_eq_false_imp, List.any_eq_false,
    Bool.not_eq_true]
  constructor
  · rintro ⟨⟨⟨⟨⟨nonempty, allowed⟩, window⟩, peripheral⟩, -⟩, bus⟩
    exact ⟨nonempty, allowed, peripheral, window, bus⟩
  · rintro ⟨nonempty, readable⟩
    exact ⟨⟨⟨⟨⟨nonempty, readable.allowed⟩, readable.window⟩, readable.peripheral⟩, fun _ _ => rfl⟩,
      readable.bus⟩

/-- Whether a context save area may be read depends on the platform, DBGSR.DE and the mode. -/
theorem CsaReadable.congr {s t : State} {ea : Word} (h : CsaReadable s ea) (hp : t.platform = s.platform)
    (hd : t.dbgsr = s.dbgsr) (hu : isUser0 t = true → isUser0 s = true) : CsaReadable t ea where
  allowed := by simpa only [csaForbidden, hp] using h.allowed
  peripheral := fun user => by simpa only [attrOf, hp, hd] using h.peripheral (hu user)
  window := by simpa only [inCsfrWindow, hp] using h.window
  bus := by simpa only [busError, scratchRange, hp] using h.bus

theorem saveOrFcu_of_fails {s : State} (upper : Bool) (h : saveFails s = true) : saveOrFcu upper s = .error .fcu := by
  rw [saveOrFcu, (save_eq_none upper s).mpr h]

theorem saveOrFcu_of_not_fails {s : State} (upper : Bool) (h : saveFails s = false) :
    saveOrFcu upper s = .ok (if upper then dropUpper (saved true s) else saved false s) := by
  rw [saveOrFcu, (save_eq_some upper s _).mpr ⟨h, rfl⟩]

/-! ### Targets -/

/-- A relative target is the instruction's own address and twice the displacement (42 R445). -/
theorem targetOf_rel (s : State) (disp : BitVec 24) :
    targetOf s (.rel disp) = BitVec.ofInt 32 ((s.pc.toNat : Int) + 2 * disp.toInt) := by
  have twice : disp.signExtend 32 <<< 1 = BitVec.ofInt 32 (2 * disp.toInt) := by
    rw [BitVec.shiftLeft_eq_mul_twoPow, BitVec.mul_comm, BitVec.ofInt_mul]
    rfl
  rw [targetOf, twice, BitVec.ofInt_add, BitVec.ofInt_natCast, BitVec.ofNat_toNat, BitVec.setWidth_eq]

/-- An absolute target has four bits of segment and twenty of half-word offset (log 54). -/
theorem targetOf_abs (s : State) (disp : BitVec 24) :
    targetOf s (.abs disp) =
      (disp.extractLsb' 20 4).setWidth 32 <<< 28 ||| (disp.extractLsb' 0 20).setWidth 32 <<< 1 := by
  apply BitVec.eq_of_getLsbD_eq
  intro i hi
  simp only [targetOf, BitVec.getLsbD_append, BitVec.getLsbD_or, BitVec.getLsbD_shiftLeft, BitVec.getLsbD_setWidth,
    BitVec.getLsbD_extractLsb', BitVec.getLsbD_zero]
  by_cases low : i < 1
  · simp [low, show i < 28 by omega]
  · by_cases offset : i < 21
    · simp [low, show i - 1 < 20 by omega, show i < 28 by omega, hi, show i - 1 < 32 by omega]
    · by_cases gap : i < 28
      · simp [low, gap, show ¬ i - 1 < 20 by omega, show i - 1 - 20 < 7 by omega]
      · simp [low, gap, hi, show ¬ i - 1 < 20 by omega, show ¬ i - 1 - 20 < 7 by omega,
          show i - 1 - 20 - 7 = i - 28 by omega, show i - 28 < 32 by omega]

/-! ### The call depth counter -/

/-- A counter that is on and not at its maximum goes up by one, and keeps its width (42 R440). -/
theorem cdc_add_one : ∀ cdc : BitVec 7, cdc ≠ 0x7F → cdcAtMax cdc = false →
    cdcWidth (cdc + 1) = cdcWidth cdc ∧ cdcCount (cdc + 1) = cdcCount cdc + 1 := by decide

/-- A counter that is on is not the CDC value that has none (10_state R43). -/
theorem pswCdc_ne_of_enabled {w : Word} (h : cdcEnabled w = true) : pswCdc w ≠ 0x7F := by
  simp only [cdcEnabled, Bool.and_eq_true, decide_eq_true_eq] at h
  exact h.2

theorem pswCde_callPsw (w : Word) : pswCde (callPsw w) = true := by
  rw [callPsw, pswCde, getLsbD_setBit, if_pos rfl]
  rfl

/-- A CALL touches no bit of PSW above CDE. -/
theorem extract_callPsw (w : Word) {lo n : Nat} (h : 8 ≤ lo) :
    (callPsw w).extractLsb' lo n = w.extractLsb' lo n := by
  rw [callPsw, setBit, extract_setField_other _ _ _ _ _ (.inr h)]
  split
  · exact extract_setField_other _ _ _ _ _ (.inr (by omega))
  · rfl

theorem pswCdc_callPsw (w : Word) : pswCdc (callPsw w) = if cdcEnabled w then pswCdc w + 1 else pswCdc w := by
  rw [callPsw, pswCdc, setBit, extract_setField_other _ _ _ _ _ (.inl (by decide))]
  split
  · exact extract_setField_same _ _ _ (by decide)
  · rfl

/-! ### The registers of a context -/

section contexts
variable (bs : List Byte) (t : State) (r : Fin 16)

theorem ar_loadLowerRegs_other (h : ¬ (2 ≤ r.val ∧ r.val < 8)) : (loadLowerRegs bs t).ar r = t.ar r := by
  have apart (k : Nat) (hk : 2 ≤ k ∧ k < 8) : k ≠ r.val := fun e => h (e ▸ hk)
  simp [State.ar, loadLowerRegs, apart]

theorem dr_loadLowerRegs_other (h : 8 ≤ r.val) : (loadLowerRegs bs t).dr r = t.dr r := by
  have apart (k : Nat) (hk : k < 8) : k ≠ r.val := by omega
  simp [State.dr, loadLowerRegs, apart]

theorem ar_loadUpperRegs_other (h : r.val < 10) : (loadUpperRegs bs t).ar r = t.ar r := by
  have apart (k : Nat) (hk : 10 ≤ k) : k ≠ r.val := by omega
  simp [State.ar, loadUpperRegs, apart]

theorem dr_loadUpperRegs_other (h : r.val < 8) : (loadUpperRegs bs t).dr r = t.dr r := by
  have apart (k : Nat) (hk : 8 ≤ k) : k ≠ r.val := by omega
  simp [State.dr, loadUpperRegs, apart]

/-- The upper context, its registers numbered by literals (10_state R52). -/
theorem upperWords_eq (s : State) : upperWords s =
    [s.pcxi, s.psw, s.a[10], s.a[11], s.d[8], s.d[9], s.d[10], s.d[11],
     s.a[12], s.a[13], s.a[14], s.a[15], s.d[12], s.d[13], s.d[14], s.d[15]] := rfl

/-- The lower context, its registers numbered by literals (10_state R52). -/
theorem lowerWords_eq (s : State) : lowerWords s =
    [s.pcxi, s.ar 11, s.a[2], s.a[3], s.d[0], s.d[1], s.d[2], s.d[3],
     s.a[4], s.a[5], s.a[6], s.a[7], s.d[4], s.d[5], s.d[6], s.d[7]] := rfl

/-- Two words, then words 2 to 15 of a block: word `k` of the block stands at `k`. -/
theorem getElem?_words (p q : Word) {k : Fin 16} (h : 2 ≤ k.val) :
    (p :: q :: (List.range' 2 14).map (wordAt bs))[k.val]? = some (wordAt bs k.val) := by
  obtain ⟨j, hj⟩ := Nat.exists_eq_add_of_le' h
  have inside : j < 14 := by omega
  rw [hj, List.getElem?_cons_succ, List.getElem?_cons_succ, List.getElem?_map, List.getElem?_range' inside, Nat.one_mul,
    Nat.add_comm 2 j]
  rfl

/-- Words 2 to 15 of a lower context go to A[2] to A[7] and D[0] to D[7] (42 R456). -/
theorem lowerWords_loadLowerRegs {k : Fin 16} (h : 2 ≤ k.val) :
    (lowerWords (loadLowerRegs bs t))[k.val]? = some (wordAt bs k.val) := by
  have loaded : lowerWords (loadLowerRegs bs t) = t.pcxi :: t.ar 11 :: (List.range' 2 14).map (wordAt bs) := by
    rw [lowerWords_eq, ← ar_loadLowerRegs_other bs t 11 (by decide)]
    simp only [loadLowerRegs, Vector.getElem_set, Nat.reduceEqDiff, if_true, if_false]
    rfl
  rw [loaded, getElem?_words bs _ _ h]

/-- Words 2 to 15 of an upper context go to A[10] to A[15] and D[8] to D[15] (42 R457). -/
theorem upperWords_loadUpperRegs {k : Fin 16} (h : 2 ≤ k.val) :
    (upperWords (loadUpperRegs bs t))[k.val]? = some (wordAt bs k.val) := by
  have loaded : upperWords (loadUpperRegs bs t) = t.pcxi :: t.psw :: (List.range' 2 14).map (wordAt bs) := by
    rw [upperWords_eq]
    simp only [loadUpperRegs, Vector.getElem_set, Nat.reduceEqDiff, if_true, if_false]
    rfl
  rw [loaded, getElem?_words bs _ _ h]

end contexts

/-! ### The instructions -/

/-- CALL where its save can be completed and its counter is not at its maximum (42 R445). -/
theorem exec_call (len : Len) (t : Target) {s : State} (completes : saveFails s = false)
    (counts : (cdcEnabled s.psw && cdcAtMax (pswCdc s.psw)) = false) :
    exec (.call len t) s = .next { dropUpper (saved true s) with
      psw := callPsw s.psw, a := (dropUpper (saved true s)).a.set 11 (s.pc + lenBytes len), pc := targetOf s t,
      completed := true } := by
  have nonempty : decide (ctxPtr s.fcx = 0) = false := decide_eq_false (saveFails_eq_false_iff.mp completes).1
  simp only [exec, execCall, nonempty, counts, saveOrFcu_of_not_fails true completes, stopIf_false, raiseIf_false, ok_bind,
    if_true, finish_ok]

/-- Settles O28: CALL past its guards, and the count by `cdc_add_one`. -/
theorem callsAndJumps : Obligations.CallsAndJumps := by
  unfold Obligations.CallsAndJumps
  intro len t s dest
  have target : targetOf s t = dest := by
    cases t with
    | rel disp => exact targetOf_rel s disp
    | abs disp => exact targetOf_abs s disp
    | ind a => rfl
  refine ⟨by rw [← target]; rfl, fun completes counts => ⟨callPsw s.psw, ?_, pswCde_callPsw s.psw,
    extract_callPsw s.psw (Nat.le_refl 8), fun off => ?_, fun on => ?_⟩⟩
  · rw [← target]
    exact exec_call len t completes counts
  · rw [pswCdc_callPsw, off]
    rfl
  · rw [pswCdc_callPsw, on]
    rw [on, Bool.true_and] at counts
    exact cdc_add_one _ (pswCdc_ne_of_enabled on) counts

/-- RET past its own checks: the restore, and on at the old A[11] (42 R443). -/
theorem exec_ret (len : Len) {s : State} (nonempty : ctxPtr s.pcxi ≠ 0)
    (counts : (cdcEnabled s.psw && cdcIsZero (pswCdc s.psw)) = false) (upper : pcxiUl s.pcxi = true) :
    exec (.ret len) s = finish s (do
      let t ← restore true s
      .ok { t with pc := evenAddr (s.ar 11) }) := by
  simp only [exec, execRet, returnFromCall, decide_eq_false nonempty, counts, upper, Bool.not_true, raiseIf_false, ok_bind]

/-- RFE past its own checks: the restore, ICR from the old PCXI, and on at the old A[11] (42 R444, D28). -/
theorem exec_rfe (len : Len) {s : State} (nonempty : ctxPtr s.pcxi ≠ 0)
    (counts : (cdcEnabled s.psw && !cdcIsZero (pswCdc s.psw)) = false) (upper : pcxiUl s.pcxi = true) :
    exec (.rfe len) s = finish s (do
      let t ← restore true s
      .ok { t with pc := evenAddr (s.ar 11), icr := setField (setBit s.icr 8 (pcxiPie s.pcxi)) 0 (pcxiPcpn s.pcxi) }) := by
  simp only [exec, execRfe, returnFromException, decide_eq_false nonempty, counts, upper, Bool.not_true, raiseIf_false,
    ok_bind]

/-- RET whose restore passes too. -/
theorem exec_ret_restored (len : Len) {s : State} (nonempty : ctxPtr s.pcxi ≠ 0)
    (counts : (cdcEnabled s.psw && cdcIsZero (pswCdc s.psw)) = false) (upper : pcxiUl s.pcxi = true)
    (readable : CsaReadable s (csaEa (ctxPtr s.pcxi))) :
    exec (.ret len) s = .next { restored true s with pc := evenAddr (s.ar 11), completed := true } := by
  rw [exec_ret len nonempty counts upper, restore_of_readable readable, ok_bind, finish_ok]

/-- RFE whose restore passes too. -/
theorem exec_rfe_restored (len : Len) {s : State} (nonempty : ctxPtr s.pcxi ≠ 0)
    (counts : (cdcEnabled s.psw && !cdcIsZero (pswCdc s.psw)) = false) (upper : pcxiUl s.pcxi = true)
    (readable : CsaReadable s (csaEa (ctxPtr s.pcxi))) :
    exec (.rfe len) s = .next { restored true s with
      pc := evenAddr (s.ar 11), icr := setField (setBit s.icr 8 (pcxiPie s.pcxi)) 0 (pcxiPcpn s.pcxi)
      completed := true } := by
  rw [exec_rfe len nonempty counts upper, restore_of_readable readable, ok_bind, finish_ok]

/-- RSLCX past its own checks: the restore (42 R453). -/
theorem exec_rslcx (len : Len) {s : State} (nonempty : ctxPtr s.pcxi ≠ 0) (lower : pcxiUl s.pcxi = false) :
    exec (.rslcx len) s = finish s (do
      let t ← restore false s
      .ok (advance len t)) := by
  simp only [exec, execRslcx, decide_eq_false nonempty, lower, raiseIf_false, ok_bind]

/-- ICR with its enable bit and its priority written: both read back, the bits above them are kept (10_state R54). -/
theorem icr_setIe_setCcpn (w : Word) (ie : Bool) (ccpn : BitVec 8) :
    icrIe (setField (setBit w 8 ie) 0 ccpn) = ie ∧ icrCcpn (setField (setBit w 8 ie) 0 ccpn) = ccpn ∧
      (setField (setBit w 8 ie) 0 ccpn).extractLsb' 9 23 = w.extractLsb' 9 23 := by
  refine ⟨?_, extract_setField_same _ _ _ (by decide), ?_⟩
  · rw [icrIe, getLsbD_setField, if_neg (by decide), getLsbD_setBit, if_pos rfl]
    rfl
  · rw [extract_setField_other _ _ _ _ _ (.inr (by decide)), setBit, extract_setField_other _ _ _ _ _ (.inr (by decide))]

/-- Settles O29: each return past its checks and its restore; ICR by `icr_setIe_setCcpn`. -/
theorem returns : Obligations.Returns := by
  unfold Obligations.Returns
  intro len s nonempty upper readable
  exact ⟨fun counts => exec_ret_restored len nonempty counts upper readable,
    fun counts => ⟨_, exec_rfe_restored len nonempty counts upper readable, icr_setIe_setCcpn s.icr _ _⟩⟩

/-- Settles O30: the save by `saveOrFcu_of_not_fails`, the restore by `restore_of_readable`. -/
theorem lowerContexts : Obligations.LowerContexts := by
  unfold Obligations.LowerContexts
  intro len k s
  refine ⟨fun completes => ?_, fun user => ?_, fun supervisor completes =>
    ⟨_, ?_, icr_setIe_setCcpn s.icr true k⟩, fun nonempty lower readable => ?_⟩
  · simp only [exec, execSvlcx, saveOrFcu_of_not_fails false completes, ok_bind, Bool.false_eq_true, if_false, finish_ok,
      advance, saved_pc]
  · simp only [exec, execBisr, supervisorOnly, user, Bool.not_false, raiseIf_true, error_bind, finish_trap]
    rfl
  · simp only [exec, execBisr, supervisorOnly, supervisor, Bool.not_true, raiseIf_false,
      saveOrFcu_of_not_fails false completes, ok_bind, Bool.false_eq_true, if_false, finish_ok, advance, saved_pc]
  · rw [exec_rslcx len nonempty lower, restore_of_readable readable]
    simp only [ok_bind, finish_ok, advance, restored_pc]

theorem ar_physRead (s : State) (pas : List Word) (r : Fin 16) : (physRead s pas).2.ar r = s.ar r := by
  rw [State.ar, physRead_a, State.ar]

theorem dr_physRead (s : State) (pas : List Word) (r : Fin 16) : (physRead s pas).2.dr r = s.dr r := by
  rw [State.dr, physRead_d, State.dr]

/-- Settles O31: the checks by `checkCtx_of_ok`; what a load gives each register, word by word. -/
theorem contextLoadsAndStores : Obligations.ContextLoadsAndStores := by
  unfold Obligations.ContextLoadsAndStores
  intro len m s pas
  refine ⟨fun ok => ⟨?_, ?_⟩, fun ok => ?_⟩
  · simp only [exec, execStlcx, storeCtx, checkCtx_of_ok ok, ok_bind, finish_ok, advance, physWrite_pc]
    rfl
  · simp only [exec, execStucx, storeCtx, checkCtx_of_ok ok, ok_bind, finish_ok, advance, physWrite_pc]
    rfl
  · refine ⟨loadLowerRegs (physRead s pas).1 (physRead s pas).2, loadUpperRegs (physRead s pas).1 (physRead s pas).2,
      ?_, ?_, ?_, ?_, ?_, ?_, ?_⟩
    · simp only [exec, execLdlcx, checkCtx_of_ok ok, ok_bind, finish_ok, advance, loadLowerRegs_pc, physRead_pc]
      rfl
    · simp only [exec, execLducx, checkCtx_of_ok ok, ok_bind, finish_ok, advance, loadUpperRegs_pc, physRead_pc]
      rfl
    · rw [physRead_eq]
      rfl
    · rw [physRead_eq]
      rfl
    · exact fun r => ⟨fun h => (ar_loadLowerRegs_other _ _ r h).trans (ar_physRead s pas r),
        fun h => (dr_loadLowerRegs_other _ _ r h).trans (dr_physRead s pas r)⟩
    · exact fun r => ⟨fun _ _ _ => (ar_loadUpperRegs_other _ _ r (by omega)).trans (ar_physRead s pas r),
        fun h => (dr_loadUpperRegs_other _ _ r h).trans (dr_physRead s pas r)⟩
    · exact fun k hk => ⟨lowerWords_loadLowerRegs _ _ hk, upperWords_loadUpperRegs _ _ hk⟩

/-! ### The traps of the contexts -/

section traps
variable (len : Len) (t : Target) {s : State}

/-- An empty free list stops CALL before its counter is asked (60 R720). -/
theorem exec_call_empty (h : ctxPtr s.fcx = 0) : exec (.call len t) s = .next (takeFcu s) := by
  simp only [exec, execCall, decide_eq_true h, stopIf_true, error_bind, finish_fcu]

/-- A counter at its maximum is CDO (42 R445). -/
theorem exec_call_cdo (nonempty : ctxPtr s.fcx ≠ 0) (full : (cdcEnabled s.psw && cdcAtMax (pswCdc s.psw)) = true) :
    exec (.call len t) s = .next (enterTrap 3 2 s.pc s) := by
  simp only [exec, execCall, decide_eq_false nonempty, full, stopIf_false, raiseIf_true, ok_bind, error_bind, finish_trap]
  rfl

/-- A save that CALL cannot complete is FCU, whichever its error (42 R439). -/
theorem exec_call_fcu (counts : (cdcEnabled s.psw && cdcAtMax (pswCdc s.psw)) = false) (fails : saveFails s = true) :
    exec (.call len t) s = .next (takeFcu s) := by
  by_cases nonempty : ctxPtr s.fcx = 0
  · exact exec_call_empty len t nonempty
  · simp only [exec, execCall, decide_eq_false nonempty, counts, saveOrFcu_of_fails true fails, stopIf_false, raiseIf_false,
      ok_bind, error_bind, finish_fcu]

/-- A zero PCX stops every restore first (60 R720): CSU. -/
theorem exec_csu (h : ctxPtr s.pcxi = 0) :
    exec (.ret len) s = .next (enterTrap 3 5 s.pc s) ∧ exec (.rfe len) s = .next (enterTrap 3 5 s.pc s) ∧
      exec (.rslcx len) s = .next (enterTrap 3 5 s.pc s) := by
  simp only [exec, execRet, execRfe, execRslcx, returnFromCall, returnFromException, decide_eq_true h, raiseIf_true,
    error_bind, finish_trap]
  exact ⟨rfl, rfl, rfl⟩

/-- A count of zero is CDU on RET, whatever PCXI.UL (42 R443). -/
theorem exec_ret_cdu (nonempty : ctxPtr s.pcxi ≠ 0) (zero : (cdcEnabled s.psw && cdcIsZero (pswCdc s.psw)) = true) :
    exec (.ret len) s = .next (enterTrap 3 3 s.pc s) := by
  simp only [exec, execRet, returnFromCall, decide_eq_false nonempty, zero, raiseIf_false, raiseIf_true, ok_bind, error_bind,
    finish_trap]
  rfl

theorem exec_ret_ctyp (nonempty : ctxPtr s.pcxi ≠ 0) (counts : (cdcEnabled s.psw && cdcIsZero (pswCdc s.psw)) = false)
    (lower : pcxiUl s.pcxi = false) : exec (.ret len) s = .next (enterTrap 3 6 s.pc s) := by
  simp only [exec, execRet, returnFromCall, decide_eq_false nonempty, counts, lower, Bool.not_false, raiseIf_false,
    raiseIf_true, ok_bind, error_bind, finish_trap]
  rfl

/-- A count that is not zero is NEST on RFE, whatever PCXI.UL (42 R444, log 47). -/
theorem exec_rfe_nest (nonempty : ctxPtr s.pcxi ≠ 0) (nested : (cdcEnabled s.psw && !cdcIsZero (pswCdc s.psw)) = true) :
    exec (.rfe len) s = .next (enterTrap 3 7 s.pc s) := by
  simp only [exec, execRfe, returnFromException, decide_eq_false nonempty, nested, raiseIf_false, raiseIf_true, ok_bind,
    error_bind, finish_trap]
  rfl

theorem exec_rfe_ctyp (nonempty : ctxPtr s.pcxi ≠ 0) (counts : (cdcEnabled s.psw && !cdcIsZero (pswCdc s.psw)) = false)
    (lower : pcxiUl s.pcxi = false) : exec (.rfe len) s = .next (enterTrap 3 6 s.pc s) := by
  simp only [exec, execRfe, returnFromException, decide_eq_false nonempty, counts, lower, Bool.not_false, raiseIf_false,
    raiseIf_true, ok_bind, error_bind, finish_trap]
  rfl

theorem exec_rslcx_ctyp (nonempty : ctxPtr s.pcxi ≠ 0) (upper : pcxiUl s.pcxi = true) :
    exec (.rslcx len) s = .next (enterTrap 3 6 s.pc s) := by
  simp only [exec, execRslcx, decide_eq_false nonempty, upper, raiseIf_false, raiseIf_true, ok_bind, error_bind, finish_trap]
  rfl

end traps

/-- Settles O32: the first guard that stops each instruction. -/
theorem contextTraps : Obligations.ContextTraps := by
  unfold Obligations.ContextTraps
  intro len t k s
  refine ⟨exec_call_empty len t, exec_call_cdo len t, exec_call_fcu len t, fun fails => ?_, fun fails supervisor => ?_,
    exec_csu len, fun nonempty => ⟨exec_ret_cdu len nonempty, exec_ret_ctyp len nonempty, exec_rfe_nest len nonempty,
      exec_rfe_ctyp len nonempty, exec_rslcx_ctyp len nonempty⟩⟩
  · simp only [exec, execSvlcx, saveOrFcu_of_fails false fails, error_bind, finish_fcu]
  · simp only [exec, execBisr, supervisorOnly, supervisor, saveOrFcu_of_fails false fails, Bool.not_true, raiseIf_false,
      ok_bind, error_bind, finish_fcu]

end Sys2Proof.Machine
end

section
/-!
PROOFS. The traps of a context operation's access (42 R435, R454 to R457): the first failure of the checks on a context save
area, then the instructions that make them.
-/
namespace Sys2Proof.Machine

/-! ### The checks on a context save area -/

section checkCsa
variable {s : State} {ea : Word} (reads : Bool)

/-- A User-0 access to peripheral space is MPP, before any other check of the bytes (20_memory R175 step 6). -/
theorem checkCsa_mpp (user : isUser0 s = true) (h : ∃ pa ∈ addrs ea 64, attrOf s pa = .peripheral) :
    checkCsa s ea reads = .error (.trap .mpp) := by
  have denied : (isUser0 s && (addrs ea 64).any fun pa => hasP (attrOf s pa)) = true := by
    obtain ⟨pa, mem, peripheral⟩ := h
    rw [user]
    exact List.any_eq_true.mpr ⟨pa, mem, decide_eq_true peripheral⟩
  rw [checkCsa, denied]
  rfl

theorem mpp_eq_false (h : isUser0 s = true → ∀ pa ∈ addrs ea 64, attrOf s pa ≠ .peripheral) :
    (isUser0 s && (addrs ea 64).any fun pa => hasP (attrOf s pa)) = false := by
  rw [Bool.and_eq_false_imp]
  exact fun user => List.any_eq_false.mpr fun pa mem peripheral => h user pa mem (of_decide_eq_true peripheral)

/-- An access to the CSFR window that is no MPP is refused (log 24). -/
theorem checkCsa_refused (allowed : isUser0 s = true → ∀ pa ∈ addrs ea 64, attrOf s pa ≠ .peripheral)
    (h : ∃ pa ∈ addrs ea 64, inCsfrWindow s pa = true) : checkCsa s ea reads = .error (.refuse .csfrAccess) := by
  rw [checkCsa, mpp_eq_false allowed, List.any_eq_true.mpr h]
  rfl

/-- A read that is neither and meets a bus error is DSE (20_memory R175 step 7). -/
theorem checkCsa_dse (allowed : isUser0 s = true → ∀ pa ∈ addrs ea 64, attrOf s pa ≠ .peripheral)
    (window : ∀ pa ∈ addrs ea 64, inCsfrWindow s pa = false) (h : ∃ pa ∈ addrs ea 64, busError s pa = true) :
    checkCsa s ea true = .error (.trap .dse) := by
  have outside : (addrs ea 64).any (inCsfrWindow s) = false := List.any_eq_false.mpr fun pa mem => by simp [window pa mem]
  rw [checkCsa, mpp_eq_false allowed, outside, List.any_eq_true.mpr h, Bool.true_and, Bool.or_true]
  rfl

/-- A write that is neither passes, whatever the bus reports: its error comes back as a DAE (60 R702). -/
theorem checkCsa_write (allowed : isUser0 s = true → ∀ pa ∈ addrs ea 64, attrOf s pa ≠ .peripheral)
    (window : ∀ pa ∈ addrs ea 64, inCsfrWindow s pa = false) : checkCsa s ea false = .ok () :=
  (checkCsa_eq_ok ..).mpr ⟨fun user pa mem => decide_eq_false (allowed user pa mem), window, nofun⟩

end checkCsa

/-! ### The checks of a context load or store -/

/-- MEM of a context load or store: another segment than the base, 64 bytes across two segments, or a place where the
implementation forbids a context save area (42 R435, 60 R693, D15). -/
def CtxMem (s : State) (m : Mode) : Prop :=
  (∃ b, modeBase s m = some b ∧ segment (modeEa s m) ≠ segment b) ∨
    segment (modeEa s m + 63) ≠ segment (modeEa s m) ∨ csaForbidden s (modeEa s m) = true

theorem ctxMem_iff {s : State} {m : Mode} :
    ((modeBase s m).any (fun b => segment (modeEa s m) ≠ segment b) ||
      segment (modeEa s m + 63) ≠ segment (modeEa s m) || csaForbidden s (modeEa s m)) = true ↔ CtxMem s m := by
  simp [CtxMem, Option.any_eq_true, or_assoc]

section checkCtx
variable {s : State} {m : Mode} (reads : Bool)

theorem checkCtx_mem (h : CtxMem s m) : checkCtx s m reads = .error (.trap .mem) := by
  rw [checkCtx, ctxMem_iff.mpr h]
  rfl

theorem checkCtx_aln (h : ¬ CtxMem s m) (misaligned : (modeEa s m).toNat % 64 ≠ 0) :
    checkCtx s m reads = .error (.trap .aln) := by
  rw [checkCtx, Bool.eq_false_iff.mpr (mt ctxMem_iff.mp h), decide_eq_true misaligned]
  rfl

theorem checkCtx_mpn (h : ¬ CtxMem s m) (zero : modeEa s m = 0) : checkCtx s m reads = .error (.trap .mpn) := by
  rw [checkCtx, Bool.eq_false_iff.mpr (mt ctxMem_iff.mp h), zero]
  rfl

/-- An address in order leaves the checks on the bytes. -/
theorem checkCtx_of_address (h : ¬ CtxMem s m) (aligned : (modeEa s m).toNat % 64 = 0) (nonzero : modeEa s m ≠ 0) :
    checkCtx s m reads = (checkCsa s (modeEa s m) reads >>= fun _ => .ok (addrs (modeEa s m) 64)) := by
  rw [checkCtx, Bool.eq_false_iff.mpr (mt ctxMem_iff.mp h), decide_eq_false (not_not_intro aligned), decide_eq_false nonzero]
  rfl

end checkCtx

/-! ### The instructions -/

/-- The four context loads and stores make the same checks; a store then writes its 16 words. -/
theorem exec_checkCtx {i : Instr} {len : Len} {m : CtxMode} {loads : Bool} (s : State)
    (hi : if loads then i = .ldlcx len m ∨ i = .lducx len m else i = .stlcx len m ∨ i = .stucx len m) :
    ∃ f : List Word → Res, exec i s = finish s (checkCtx s (ctxMode m) loads >>= f) ∧
      (loads = false → ∃ bs, ∀ pas, f pas = .ok (advance len (physWrite s pas bs))) := by
  cases loads with
  | true => rcases hi with rfl | rfl <;> exact ⟨_, rfl, nofun⟩
  | false => rcases hi with rfl | rfl <;> exact ⟨_, rfl, fun _ => ⟨_, fun _ => rfl⟩⟩

/-- A restoring instruction past its own checks: RET, RFE (42 R443, R444) or RSLCX (R453). -/
def RestoreDue (i : Instr) (len : Len) (s : State) : Prop :=
  (i = .ret len ∧ (cdcEnabled s.psw && cdcIsZero (pswCdc s.psw)) = false ∧ pcxiUl s.pcxi = true) ∨
  (i = .rfe len ∧ (cdcEnabled s.psw && !cdcIsZero (pswCdc s.psw)) = false ∧ pcxiUl s.pcxi = true) ∨
  (i = .rslcx len ∧ pcxiUl s.pcxi = false)

theorem exec_restore {i : Instr} {len : Len} {s : State} (nonempty : ctxPtr s.pcxi ≠ 0) (hi : RestoreDue i len s) :
    ∃ (upper : Bool) (f : State → Res), exec i s = finish s (restore upper s >>= f) := by
  rcases hi with ⟨rfl, counts, upper⟩ | ⟨rfl, counts, upper⟩ | ⟨rfl, lower⟩
  · exact ⟨_, _, exec_ret len nonempty counts upper⟩
  · exact ⟨_, _, exec_rfe len nonempty counts upper⟩
  · exact ⟨_, _, exec_rslcx len nonempty lower⟩

theorem restore_mem (upper : Bool) {s : State} (h : csaForbidden s (csaEa (ctxPtr s.pcxi)) = true) :
    restore upper s = .error (.trap .mem) := by
  rw [restore, h]
  rfl

theorem restore_of_checkCsa (upper : Bool) {s : State} {e : Stop} (h : csaForbidden s (csaEa (ctxPtr s.pcxi)) = false)
    (he : checkCsa s (csaEa (ctxPtr s.pcxi)) true = .error e) : restore upper s = .error e := by
  rw [restore, h, he]
  rfl

/-- A byte that meets a bus error is not written (60 R702). -/
theorem memByte_physWrite_busError (s : State) (pas : List Word) (bs : List Byte) {pa : Word} (h : busError s pa = true) :
    (physWrite s pas bs).memByte pa = s.memByte pa := by
  have skipped : pa ∉ ((pas.zip bs).filter fun p => plainMemory s p.1).map Prod.fst := by
    intro mem
    obtain ⟨p, hp, rfl⟩ := List.mem_map.mp mem
    have plain := ((plainMemory_eq_true s p.1).mp (List.mem_filter.mp hp).2).2.2
    rw [h] at plain
    cases plain
  rw [State.memByte, (physWrite_eraseBus s pas bs).2.1]
  exact State.memByte_setMemBytes_other _ _ _ _ skipped

/-- A store of a context that meets a bus error leaves a pending DAE and the bytes in error. -/
theorem daePending_physWrite (s : State) (pas : List Word) (bs : List Byte) (h : ∃ pa ∈ pas, busError s pa = true) :
    (physWrite s pas bs).daePending = true := by
  rw [physWrite_daePending, List.any_eq_true.mpr h, Bool.or_true]

/-- Settles O33: the first failure of the checks, as the outcome of the instruction that makes them. -/
theorem contextAccessTraps : Obligations.ContextAccessTraps := by
  unfold Obligations.ContextAccessTraps
  constructor
  · intro i len m loads s hi ea pas mem trap
    obtain ⟨f, checks, writes⟩ := exec_checkCtx s hi
    have trapped (t : Trap) (h : checkCtx s (ctxMode m) loads = .error (.trap t)) : exec i s = .next (takeTrap t s) := by
      rw [checks, h]
      rfl
    refine ⟨fun h => trapped .mem (checkCtx_mem loads h), fun h misaligned => trapped .aln (checkCtx_aln loads h misaligned),
      fun h zero => trapped .mpn (checkCtx_mpn loads h zero), fun h aligned nonzero => ?_⟩
    have bytes := checkCtx_of_address loads h aligned nonzero
    refine ⟨fun user peripheral => trapped .mpp ?_, fun allowed => ⟨fun window => ?_, fun window bus =>
      ⟨fun reads => trapped .dse ?_, fun stores => ?_⟩⟩⟩
    · rw [bytes, checkCsa_mpp loads user peripheral]
      rfl
    · rw [checks, bytes, checkCsa_refused loads allowed window]
      rfl
    · subst reads
      rw [bytes, checkCsa_dse allowed window bus]
      rfl
    · obtain ⟨bs, written⟩ := writes stores
      subst stores
      refine ⟨{ advance len (physWrite s pas bs) with completed := true }, ?_, daePending_physWrite s pas bs bus,
        fun pa => memByte_physWrite_busError s pas bs⟩
      rw [checks, bytes, checkCsa_write allowed window, ok_bind, ok_bind, written, finish_ok]
  · intro i len s nonempty hi ea pas trap
    obtain ⟨upper, f, restores⟩ := exec_restore nonempty hi
    have stopped (e : Stop) (h : restore upper s = .error e) : exec i s = finish s (.error e) := by
      rw [restores, h]
      rfl
    exact ⟨fun forbidden => stopped _ (restore_mem upper forbidden),
      fun free user peripheral => stopped _ (restore_of_checkCsa upper free (checkCsa_mpp true user peripheral)),
      fun free allowed => ⟨fun window => stopped _ (restore_of_checkCsa upper free (checkCsa_refused true allowed window)),
        fun window bus => stopped _ (restore_of_checkCsa upper free (checkCsa_dse allowed window bus))⟩⟩

end Sys2Proof.Machine
end

section
/-!
PROOFS. A context save area from the save to the restore (42 R433, R434, R470, R471): what a save into memory leaves there, and
that the return from a call or a handler finds the registers and the free list of before again.
-/
namespace Sys2Proof.Machine

/-! ### The link word and PCXI -/

/-- The fields that PCXI was made of (10_state R45). -/
theorem mkPcxi_fields (pcpn : BitVec 8) (pie ul : Bool) (pcx : BitVec 20) :
    ctxPtr (mkPcxi pcpn pie ul pcx) = pcx ∧ pcxiUl (mkPcxi pcpn pie ul pcx) = ul ∧
      pcxiPie (mkPcxi pcpn pie ul pcx) = pie ∧ pcxiPcpn (mkPcxi pcpn pie ul pcx) = pcpn ∧
      (mkPcxi pcpn pie ul pcx).extractLsb' 20 2 = 0 := by
  refine ⟨BitVec.eq_of_getLsbD_eq fun i hi => ?_, ?_, ?_, BitVec.eq_of_getLsbD_eq fun i hi => ?_,
    BitVec.eq_of_getLsbD_eq fun i hi => ?_⟩
  all_goals simp only [ctxPtr, pcxiUl, pcxiPie, pcxiPcpn, mkPcxi, BitVec.getLsbD_extractLsb', BitVec.getLsbD_append]
  · simp [hi]
  · simp
  · simp
  · simp [hi, show ¬ 24 + i < 20 by omega, show ¬ 24 + i - 20 < 2 by omega, show ¬ 24 + i - 20 - 2 < 1 by omega,
      show ¬ 24 + i - 20 - 2 - 1 < 1 by omega, show 24 + i - 20 - 2 - 1 - 1 = i by omega]
  · simp [hi]

/-- A pointer register without its reserved bits is its pointer (10_state R47). -/
theorem setWidth_ctxPtr {w : Word} (h : w &&& 0xFFF00000 = 0) : (ctxPtr w).setWidth 32 = w := by
  apply BitVec.eq_of_getLsbD_eq
  intro i hi
  by_cases low : i < 20
  · simp [ctxPtr, low, hi]
  · have reserved : ∀ i < 32, ¬ i < 20 → (0xFFF00000 : Word).getLsbD i = true := by decide
    simp [ctxPtr, low, bits_clear_iff.mp h i hi (reserved i hi low)]

theorem ctxPtr_setWidth (p : BitVec 20) : ctxPtr (p.setWidth 32) = p := by
  apply BitVec.eq_of_getLsbD_eq
  intro i hi
  simp [ctxPtr, hi, show i < 32 by omega]

/-- Cutting off the bits `m` leaves alone a word that has none of them. -/
theorem and_eq_self_of_clear {w m : Word} (h : w &&& ~~~m = 0) : w &&& m = w := by
  apply BitVec.eq_of_getLsbD_eq
  intro i hi
  have clear := bits_clear_iff.mp h i hi
  cases hm : m.getLsbD i <;> simp_all

/-! ### What a save leaves in memory -/

section saved
variable {s : State} (upper : Bool)

/-- A save into memory changes memory, PCXI, FCX and the pending FCD alone. -/
theorem saved_eq (h : AllMemory s (addrs (csaEa (ctxPtr s.fcx)) 64)) :
    saved upper s = { s with
      mem := (saved upper s).mem, pcxi := (saved upper s).pcxi, fcx := (saved upper s).fcx,
      fcdPending := (saved upper s).fcdPending } := by
  rw [saved_memory upper s h, State.setMemBytes_eq]

/-- After a save into memory the area holds the words of the context. -/
theorem map_memByte_saved (hw : Memory.wf s.mem = true) (h : AllMemory s (addrs (csaEa (ctxPtr s.fcx)) 64)) :
    (addrs (csaEa (ctxPtr s.fcx)) 64).map (saved upper s).memByte = wordsBytes (ctxWords upper s) := by
  rw [saved_memory upper s h]
  refine memByte_setMemBytes_all s _ _ hw (addrs_nodup _ _ (by decide)) ?_
  rw [addrs_length, wordsBytes_length]
  cases upper <;> rfl

theorem ctxWords_length (s : State) : (ctxWords upper s).length = 16 := by cases upper <;> rfl

end saved

/-- Settles O34: the words by `map_memByte_saved`, the registers by `saved_memory`. -/
theorem savedContextLayout : Obligations.SavedContextLayout := by
  unfold Obligations.SavedContextLayout
  intro upper s hw hm ea t
  obtain ⟨pcx, ul, pie, pcpn, reserved⟩ := mkPcxi_fields (icrCcpn s.icr) (icrIe s.icr) upper (ctxPtr s.fcx)
  have registers := saved_memory upper s hm
  refine ⟨fun k => ?_, by cases upper <;> rfl, fun pa => memByte_saved_other upper s pa, congrArg State.fcx registers,
    pcx, ul, pie, pcpn, reserved, ?_, ?_⟩
  · rw [wordAt_wordsBytes _ _ (by rw [ctxWords_length]; exact k.isLt), ← map_memByte_saved upper hw hm,
      wordAt_addrs t ea 64 k (by omega)]
  · rw [saved_fcdPending, Bool.or_eq_true, decide_eq_true_eq]
    rfl
  · rw [show t = _ from saved_eq upper hm]

/-! ### Back from a call or a handler -/

/-- The first state of a callee or a handler of `s`: the upper context is saved, and beside it only what the return brings
back, ICR, the pc and the model's own fields have moved. -/
structure Callee (s u : State) : Prop where
  frame : u = { saved true s with
    a := u.a, d := u.d, psw := u.psw, icr := u.icr, pc := u.pc, freeCount := u.freeCount, completed := u.completed }
  lowerA : ∀ r : Fin 16, r.val < 10 → u.ar r = s.ar r
  lowerD : ∀ r : Fin 16, r.val < 8 → u.dr r = s.dr r

/-- Registers equal where an upper context holds them and below are equal. -/
theorem registers_eq_of_upperWords {x y : State}
    (words : ∀ k : Fin 16, 2 ≤ k.val → (upperWords x)[k.val]? = (upperWords y)[k.val]?)
    (ha : ∀ r : Fin 16, r.val < 10 → x.ar r = y.ar r) (hd : ∀ r : Fin 16, r.val < 8 → x.dr r = y.dr r) :
    x.a = y.a ∧ x.d = y.d := by
  constructor
  · refine Vector.ext fun i hi => ?_
    by_cases low : i < 10
    · exact ha ⟨i, hi⟩ low
    · rcases (show i = 10 ∨ i = 11 ∨ i = 12 ∨ i = 13 ∨ i = 14 ∨ i = 15 by omega) with rfl | rfl | rfl | rfl | rfl | rfl
      · exact Option.some.inj (words 2 (by decide))
      · exact Option.some.inj (words 3 (by decide))
      · exact Option.some.inj (words 8 (by decide))
      · exact Option.some.inj (words 9 (by decide))
      · exact Option.some.inj (words 10 (by decide))
      · exact Option.some.inj (words 11 (by decide))
  · refine Vector.ext fun i hi => ?_
    by_cases low : i < 8
    · exact hd ⟨i, hi⟩ low
    · rcases (show i = 8 ∨ i = 9 ∨ i = 10 ∨ i = 11 ∨ i = 12 ∨ i = 13 ∨ i = 14 ∨ i = 15 by omega) with
        rfl | rfl | rfl | rfl | rfl | rfl | rfl | rfl
      · exact Option.some.inj (words 4 (by decide))
      · exact Option.some.inj (words 5 (by decide))
      · exact Option.some.inj (words 6 (by decide))
      · exact Option.some.inj (words 7 (by decide))
      · exact Option.some.inj (words 12 (by decide))
      · exact Option.some.inj (words 13 (by decide))
      · exact Option.some.inj (words 14 (by decide))
      · exact Option.some.inj (words 15 (by decide))

/-- The upper context of `y`, loaded where the lower registers are `y`'s, gives all of `y`'s registers. -/
theorem loadUpperRegs_upperWords {x y : State} (ha : ∀ r : Fin 16, r.val < 10 → x.ar r = y.ar r)
    (hd : ∀ r : Fin 16, r.val < 8 → x.dr r = y.dr r) :
    loadUpperRegs (wordsBytes (upperWords y)) x = { x with a := y.a, d := y.d } := by
  obtain ⟨a, d⟩ := registers_eq_of_upperWords (x := loadUpperRegs (wordsBytes (upperWords y)) x) (y := y)
    (fun k hk => (upperWords_loadUpperRegs _ x hk).trans (wordAt_wordsBytes (upperWords y) k.val k.isLt).symm)
    (fun r hr => (ar_loadUpperRegs_other _ x r hr).trans (ha r hr))
    (fun r hr => (dr_loadUpperRegs_other _ x r hr).trans (hd r hr))
  rw [← a, ← d]
  rfl

/-- A restore from memory: the link word of the area becomes the head of the free list, the other words the upper context. -/
theorem restored_memory {u : State} (h : AllMemory u (addrs (csaEa (ctxPtr u.pcxi)) 64)) :
    restored true u = { loadUpperRegs ((addrs (csaEa (ctxPtr u.pcxi)) 64).map u.memByte)
        { u.setMemBytes (addrs (csaEa (ctxPtr u.pcxi)) 4) (wordBytes u.fcx) with
          fcx := (ctxPtr u.pcxi).setWidth 32
          pcxi := wordAt ((addrs (csaEa (ctxPtr u.pcxi)) 64).map u.memByte) 0 &&& pcxiMask } with
      psw := wordAt ((addrs (csaEa (ctxPtr u.pcxi)) 64).map u.memByte) 1 &&& pswMask } := by
  have link : AllMemory u (addrs (csaEa (ctxPtr u.pcxi)) 4) := fun pa mem => h pa (addrs_four_mem mem)
  simp only [restored, physRead_memory h, physWrite_memory link, if_true]

section callee
variable {s u : State}

theorem Callee.pcxi (hc : Callee s u) : u.pcxi = mkPcxi (icrCcpn s.icr) (icrIe s.icr) true (ctxPtr s.fcx) :=
  congrArg State.pcxi hc.frame

/-- PCX of the callee is the old head of the free list. -/
theorem Callee.ctxPtr_pcxi (hc : Callee s u) : ctxPtr u.pcxi = ctxPtr s.fcx := by
  rw [hc.pcxi]
  exact (mkPcxi_fields _ _ _ _).1

theorem Callee.pcxiUl_pcxi (hc : Callee s u) : pcxiUl u.pcxi = true := by
  rw [hc.pcxi]
  exact (mkPcxi_fields _ _ _ _).2.1

theorem Callee.memByte (hc : Callee s u) : u.memByte = (saved true s).memByte := by
  rw [hc.frame]
  rfl

theorem Callee.allMemory (hc : Callee s u) {pas : List Word} (hm : AllMemory s (addrs (csaEa (ctxPtr s.fcx)) 64))
    (h : AllMemory s pas) : AllMemory u pas := by
  intro pa mem
  rw [hc.frame, saved_eq true hm]
  exact h pa mem

/-- The area that was saved to may be read again, from a mode with the caller's rights or more. -/
theorem Callee.readable (hc : Callee s u) (completes : saveFails s = false) (hu : isUser0 u = true → isUser0 s = true) :
    ctxPtr u.pcxi ≠ 0 ∧ CsaReadable u (csaEa (ctxPtr u.pcxi)) := by
  obtain ⟨nonempty, readable⟩ := saveFails_eq_false_iff.mp completes
  have platform : u.platform = s.platform := (congrArg State.platform hc.frame).trans (saved_platform true s)
  have dbgsr : u.dbgsr = s.dbgsr := (congrArg State.dbgsr hc.frame).trans (saved_dbgsr true s)
  rw [hc.ctxPtr_pcxi]
  exact ⟨nonempty, readable.congr platform dbgsr hu⟩

/-- The restore of what was just saved: all but memory, ICR, the pc, the pending FCD and the model's own fields is as
before. -/
theorem Callee.restored_eq (hc : Callee s u) (h : s.Inv) (hm : AllMemory s (addrs (csaEa (ctxPtr s.fcx)) 64)) :
    restored true u = { s with
      mem := (restored true u).mem, icr := u.icr, pc := u.pc, fcdPending := u.fcdPending, freeCount := u.freeCount,
      completed := u.completed } := by
  have bytes : (addrs (csaEa (ctxPtr s.fcx)) 64).map u.memByte = wordsBytes (upperWords s) :=
    hc.memByte ▸ map_memByte_saved true h.mem hm
  have pcxi : wordAt (wordsBytes (upperWords s)) 0 &&& pcxiMask = s.pcxi := by
    rw [← Option.some.inj (wordAt_wordsBytes (upperWords s) 0 (Nat.succ_pos _)), and_eq_self_of_clear h.pcxi]
  have psw : wordAt (wordsBytes (upperWords s)) 1 &&& pswMask = s.psw := by
    rw [← Option.some.inj (wordAt_wordsBytes (upperWords s) 1 (Nat.succ_lt_succ (Nat.succ_pos _))),
      and_eq_self_of_clear h.psw]
  have registers (ps : List Word) (bs : List Byte) (x y : Word) :
      loadUpperRegs (wordsBytes (upperWords s)) { u.setMemBytes ps bs with fcx := x, pcxi := y } =
        { u.setMemBytes ps bs with fcx := x, pcxi := y, a := s.a, d := s.d } := by
    rw [State.setMemBytes_eq]
    exact loadUpperRegs_upperWords hc.lowerA hc.lowerD
  have moved := restored_memory (hc.ctxPtr_pcxi ▸ hc.allMemory hm hm)
  rw [hc.ctxPtr_pcxi, bytes, registers, pcxi, psw, setWidth_ctxPtr h.fcx, State.setMemBytes_eq] at moved
  rw [moved]
  generalize (u.setMemBytes _ _).mem = m
  rw [hc.frame, saved_eq true hm]

/-- The restore moves the link word of the area alone. -/
theorem Callee.memByte_restored (hc : Callee s u) (hm : AllMemory s (addrs (csaEa (ctxPtr s.fcx)) 64)) :
    (restored true u).memByte =
      (u.setMemBytes (addrs (csaEa (ctxPtr s.fcx)) 4) (wordBytes u.fcx)).memByte := by
  rw [restored_memory (hc.ctxPtr_pcxi ▸ hc.allMemory hm hm), hc.ctxPtr_pcxi]
  rfl

theorem Callee.memByte_restored_other (hc : Callee s u) (hm : AllMemory s (addrs (csaEa (ctxPtr s.fcx)) 64)) {pa : Word}
    (h : pa ∉ addrs (csaEa (ctxPtr s.fcx)) 64) : (restored true u).memByte pa = s.memByte pa := by
  rw [hc.memByte_restored hm, State.memByte_setMemBytes_other _ _ _ _ (mt addrs_four_mem h), hc.memByte,
    memByte_saved_other true s pa h]

/-- The area goes back to the free list: its link word is the rest of the list. -/
theorem Callee.memWord_restored (hc : Callee s u) (h : s.Inv) (hm : AllMemory s (addrs (csaEa (ctxPtr s.fcx)) 64)) :
    ctxPtr ((restored true u).memWord (csaEa (ctxPtr s.fcx))) = ctxPtr (s.memWord (csaEa (ctxPtr s.fcx))) := by
  have mem : Memory.wf u.mem = true := congrArg State.mem hc.frame ▸ wf_saved true s h.mem
  have fcx : u.fcx = (ctxPtr (s.memWord (csaEa (ctxPtr s.fcx)))).setWidth 32 :=
    (congrArg State.fcx hc.frame).trans (congrArg State.fcx (saved_memory true s hm))
  have word := wordAt_addrs (restored true u) (csaEa (ctxPtr s.fcx)) 4 0 (by decide)
  rw [hc.memByte_restored hm, memByte_setMemBytes_all u _ _ mem (addrs_nodup _ _ (by decide)) (addrs_length _ 4),
    Nat.mul_zero, BitVec.add_zero] at word
  rw [← word, ← ctxPtr_setWidth (ctxPtr (s.memWord _)), ← fcx]
  exact congrArg ctxPtr (wordOf_wordBytes u.fcx [])

end callee

/-- What the entry to a callee or a handler does after the save: registers that the return brings back, PSW, ICR and the
pc. -/
theorem callee_of_dropUpper {s : State} {a d : Vector Word 16} (p i c : Word) (b : Bool)
    (ha : ∀ r : Fin 16, r.val < 10 → a[r] = (dropUpper (saved true s)).ar r)
    (hd : ∀ r : Fin 16, r.val < 8 → d[r] = (dropUpper (saved true s)).dr r) :
    Callee s { dropUpper (saved true s) with a := a, d := d, psw := p, icr := i, pc := c, completed := b } where
  frame := by rw [dropUpper_eq]
  lowerA r hr := by
    rw [show State.ar _ r = a[r] from rfl, ha r hr, dropUpper_ar _ r (by omega), State.ar, saved_a, State.ar]
  lowerD r hr := by
    rw [show State.dr _ r = d[r] from rfl, hd r hr, dropUpper_dr _ r hr, State.dr, saved_d, State.dr]

theorem evenAddr_of_even {w : Word} (h : w &&& 1 = 0) : evenAddr w = w := and_eq_self_of_clear h

/-- A part of a field that was just written. -/
theorem extract_setField_inside {n : Nat} (w : Word) (lo : Nat) (v : BitVec n) (k m : Nat) (hk : k + m ≤ n)
    (hn : lo + n ≤ 32) : (setField w lo v).extractLsb' (lo + k) m = v.extractLsb' k m := by
  apply BitVec.eq_of_getLsbD_eq
  intro i hi
  rw [BitVec.getLsbD_extractLsb', BitVec.getLsbD_extractLsb', getLsbD_setField, if_pos (by omega),
    show lo + k + i - lo = k + i by omega, decide_eq_true (show lo + k + i < 32 by omega), Bool.true_and]

/-- A handler starts in Supervisor mode (60 R670). -/
theorem pswIo_entryPsw (w : Word) : pswIo (entryPsw w) = 2 := extract_setField_inside w 0 _ 10 2 (by decide) (by decide)

/-- A handler starts with a count of zero (60 R670). -/
theorem pswCdc_entryPsw (w : Word) : pswCdc (entryPsw w) = 0 := extract_setField_inside w 0 _ 0 7 (by decide) (by decide)

/-- ICR with interrupts disabled at entry, then its enable bit and priority put back, is the ICR of before (D28). -/
theorem icr_restored (w : Word) : setField (setBit (setBit w 8 false) 8 (icrIe w)) 0 (icrCcpn w) = w := by
  apply BitVec.eq_of_getLsbD_eq
  intro i hi
  rw [getLsbD_setField, getLsbD_setBit, getLsbD_setBit]
  by_cases ccpn : i < 8
  · simp [icrCcpn, ccpn, hi]
  · by_cases ie : i = 8
    · simp [icrIe, ie]
    · simp [ie, show ¬ i < 0 + 8 by omega]

/-- The first state of the callee of a CALL. -/
theorem exec_call_callee (len : Len) (t : Target) {s : State} (completes : saveFails s = false)
    (counts : (cdcEnabled s.psw && cdcAtMax (pswCdc s.psw)) = false) :
    ∃ u, exec (.call len t) s = .next u ∧ Callee s u ∧ u.psw = callPsw s.psw ∧ u.icr = s.icr ∧
      u.ar 11 = s.pc + lenBytes len := by
  refine ⟨_, exec_call len t completes counts, callee_of_dropUpper _ _ _ _ (fun r hr => ?_) (fun _ _ => rfl), rfl, ?_, ?_⟩
  · exact Vector.getElem_set_ne _ _ (by omega)
  · rw [dropUpper_icr, saved_icr]
  · exact Vector.getElem_set_self _

/-- The first state of the handler of a SYSCALL (60 R670). -/
theorem exec_syscall_callee (len : Len) (k : BitVec 8) {s : State} (completes : saveFails s = false) :
    ∃ u, exec (.syscall len k) s = .next u ∧ Callee s u ∧ u.psw = entryPsw s.psw ∧ u.icr = setBit s.icr 8 false ∧
      u.ar 11 = s.pc + lenBytes len := by
  rcases enterTrap_cases 6 k (s.pc + lenBytes len) s with ⟨fails, -⟩ | ⟨-, entered⟩
  · rw [completes] at fails
    cases fails
  · obtain ⟨ra, -, -⟩ := enterTrap_handler 6 k (s.pc + lenBytes len) completes
    rw [entered] at ra
    refine ⟨_, congrArg Host.Outcome.next entered, callee_of_dropUpper _ _ _ _ (fun r hr => ?_) (fun r hr => ?_),
      rfl, rfl, ra⟩
    · rw [getElem_entryStack_other s _ (by omega)]
      exact Vector.getElem_set_ne _ _ (by omega)
    · exact Vector.getElem_set_ne _ _ (by omega)

/-- A return to the state before the call or the trap: all is as it was but the link word, the area, the pending FCD and the
model's own fields, and the pc is the return address. -/
theorem Callee.resumes {s u : State} (hc : Callee s u) (h : s.Inv) (hm : AllMemory s (addrs (csaEa (ctxPtr s.fcx)) 64))
    {len : Len} (ra : u.ar 11 = s.pc + lenBytes len) {i : Word} (hi : i = s.icr) :
    let v := { restored true u with pc := evenAddr (u.ar 11), icr := i, completed := true }
    { v with pc := s.pc, mem := s.mem, fcdPending := s.fcdPending, freeCount := s.freeCount, completed := s.completed } = s ∧
      v.pc = s.pc + lenBytes len ∧ (∀ pa, pa ∉ addrs (csaEa (ctxPtr s.fcx)) 64 → v.memByte pa = s.memByte pa) ∧
      ctxPtr (v.memWord (csaEa (ctxPtr s.fcx))) = ctxPtr (s.memWord (csaEa (ctxPtr s.fcx))) := by
  refine ⟨?_, ?_, fun pa => hc.memByte_restored_other hm, hc.memWord_restored h hm⟩
  · rw [hc.restored_eq h hm, hi]
  · rw [ra]
    exact evenAddr_of_even (add_and_one h.pc (lenBytes_and_one len))

theorem cdcEnabled_of_none {w : Word} (h : pswCdc w = 0x7F) : cdcEnabled w = false := by
  rw [cdcEnabled, h]
  exact Bool.and_false _

/-- A CALL from a counter below its maximum, or one switched off as the statement has it, passes, and leaves a counter that is
off or not zero, as RET asks (42 R443, R445). -/
theorem callPsw_returns {w : Word} (h : pswCdc w = 0x7F ∨ (pswCde w = true ∧ cdcAtMax (pswCdc w) = false) ∨
      (pswCde w = false ∧ cdcIsZero (pswCdc w) = false)) :
    (cdcEnabled w && cdcAtMax (pswCdc w)) = false ∧
      (cdcEnabled (callPsw w) && cdcIsZero (pswCdc (callPsw w))) = false := by
  by_cases none : pswCdc w = 0x7F
  · have off := cdcEnabled_of_none none
    have none' : pswCdc (callPsw w) = 0x7F := by rw [pswCdc_callPsw, off]; exact none
    rw [off, cdcEnabled_of_none none']
    exact ⟨rfl, rfl⟩
  rcases h with none' | ⟨cde, room⟩ | ⟨cde, nonzero⟩
  · exact absurd none' none
  · have on : cdcEnabled w = true := by rw [cdcEnabled, cde, decide_eq_true none]; rfl
    rw [room, pswCdc_callPsw, on, if_pos rfl, cdcIsZero, (cdc_add_one _ none room).2, Bool.and_false]
    exact ⟨rfl, by rw [decide_eq_false (Nat.succ_ne_zero _), Bool.and_false]⟩
  · have off : cdcEnabled w = false := by simp [cdcEnabled, cde]
    rw [pswCdc_callPsw, off, if_neg Bool.false_ne_true, nonzero, Bool.and_false]
    exact ⟨rfl, rfl⟩

/-- Settles O35: the callee by `exec_call_callee`, the way back by `Callee.resumes`. -/
theorem returnResumesTheCaller : Obligations.ReturnResumesTheCaller := by
  unfold Obligations.ReturnResumesTheCaller
  intro len len' t s h completes hm counter
  obtain ⟨counts, returns⟩ := callPsw_returns counter
  obtain ⟨u, call, callee, psw, icr, ra⟩ := exec_call_callee len t completes counts
  have user : isUser0 u = true → isUser0 s = true := by
    rw [isUser0, pswIo, psw, extract_callPsw _ (by decide)]
    exact id
  obtain ⟨nonempty, readable⟩ := callee.readable completes user
  exact ⟨u, _, call, exec_ret_restored len' nonempty (psw ▸ returns) callee.pcxiUl_pcxi readable,
    callee.resumes h hm ra ((restored_icr true u).trans icr)⟩

/-- Settles O36: the handler by `exec_syscall_callee`, the way back by `Callee.resumes`. -/
theorem systemCallReturns : Obligations.SystemCallReturns := by
  unfold Obligations.SystemCallReturns
  intro len len' k s h completes hm
  obtain ⟨u, call, callee, psw, icr, ra⟩ := exec_syscall_callee len k completes
  have user : isUser0 u = false := by
    rw [isUser0, psw, pswIo_entryPsw]
    rfl
  have returns : (cdcEnabled u.psw && !cdcIsZero (pswCdc u.psw)) = false := by
    rw [psw, pswCdc_entryPsw]
    exact Bool.and_false _
  obtain ⟨nonempty, readable⟩ := callee.readable completes (by rw [user]; nofun)
  have icr' : setField (setBit u.icr 8 (pcxiPie u.pcxi)) 0 (pcxiPcpn u.pcxi) = s.icr := by
    obtain ⟨-, -, pie, pcpn, -⟩ := mkPcxi_fields (icrCcpn s.icr) (icrIe s.icr) true (ctxPtr s.fcx)
    rw [icr, callee.pcxi, pie, pcpn, icr_restored]
  obtain ⟨registers, pc, memory, -⟩ := callee.resumes h hm ra icr'
  exact ⟨u, _, call, exec_rfe_restored len' nonempty returns callee.pcxiUl_pcxi readable, registers, pc, memory⟩

end Sys2Proof.Machine
end

section
/-!
PROOFS. The entry of a trap (60 R668 to R672): PSW, ICR and the stack pointer at the first instruction of a handler, after the
save of the upper context and after the reduced entry of FCU.
-/
namespace Sys2Proof.Machine

/-! ### The registers of the entry -/

/-- One bit cleared: the others as before. -/
theorem getLsbD_setBit_false (w : Word) (k j : Nat) : (setBit w k false).getLsbD j = (w.getLsbD j && decide (j ≠ k)) := by
  rw [getLsbD_setBit]
  by_cases h : j = k <;> simp [h]

/-- PSW at the first instruction of a handler, field by field (60 R670). -/
theorem entryPsw_fields (w : Word) :
    pswPrs (entryPsw w) = 0 ∧ pswIo (entryPsw w) = 2 ∧ pswIs (entryPsw w) = true ∧ pswGw (entryPsw w) = false ∧
      pswCde (entryPsw w) = true ∧ pswCdc (entryPsw w) = 0 := by
  have bit (k : Nat) (hk : k < 14) : (entryPsw w).getLsbD k = (0#2 ++ 2#2 ++ 1#1 ++ 0#1 ++ 1#1 ++ 0#7).getLsbD k := by
    rw [entryPsw, getLsbD_setField, if_pos (by omega), decide_eq_true (show k < 32 by omega), Bool.true_and, Nat.sub_zero]
  exact ⟨extract_setField_inside w 0 _ 12 2 (by decide) (by decide), pswIo_entryPsw w, bit 9 (by decide), bit 8 (by decide),
    bit 7 (by decide), pswCdc_entryPsw w⟩

/-- A handler has the interrupt stack: ISP where another was in use (10_state R50). -/
theorem getElem_entryStack_sp (s : State) (a : Vector Word 16) :
    (entryStack s a)[(10 : Fin 16)] = if pswIs s.psw then a[(10 : Fin 16)] else s.isp := by
  unfold entryStack
  split
  · rfl
  · exact Vector.getElem_set_self (by decide)

/-! ### The two entries -/

theorem enterTrap_of_save (tcn : BitVec 3) (tin : BitVec 8) (ra : Word) {s : State} (h : saveFails s = false) :
    enterTrap tcn tin ra s = { dropUpper (saved true s) with
      a := entryStack s ((dropUpper (saved true s)).a.set 11 ra),
      d := (dropUpper (saved true s)).d.set 15 (tin.setWidth 32),
      psw := entryPsw s.psw, icr := setBit s.icr 8 false, pc := trapVector s tcn, completed := false } := by
  rcases enterTrap_cases tcn tin ra s with ⟨fails, -⟩ | ⟨-, entered⟩
  · rw [h] at fails
    cases fails
  · exact entered

theorem enterTrap_of_saveFails (tcn : BitVec 3) (tin : BitVec 8) (ra : Word) {s : State} (h : saveFails s = true) :
    enterTrap tcn tin ra s = takeFcu s := by
  rw [enterTrap, (save_eq_none true s).mpr h]

/-- The registers that the handler of a trap shares with the interrupted program, and its stack pointer (60 R670). -/
theorem enterTrap_registers (tcn : BitVec 3) (tin : BitVec 8) (ra : Word) {s : State} (h : saveFails s = false) :
    (enterTrap tcn tin ra s).ar 10 = (if pswIs s.psw then s.ar 10 else s.isp) ∧
      ∀ r : Fin 16, (r.val < 8 → (enterTrap tcn tin ra s).dr r = s.dr r) ∧
        (r.val < 10 → (enterTrap tcn tin ra s).ar r = s.ar r) := by
  have kept (r : Fin 16) (hr : r.val < 11) : ((dropUpper (saved true s)).a.set 11 ra)[r] = s.ar r := by
    rw [Fin.getElem_fin, Vector.getElem_set_ne _ _ (by omega)]
    exact (dropUpper_ar _ r (by omega)).trans (by rw [State.ar, saved_a, State.ar])
  rw [enterTrap_of_save tcn tin ra h]
  refine ⟨?_, fun r => ⟨fun hr => ?_, fun hr => ?_⟩⟩
  · rw [← kept 10 (by decide)]
    exact getElem_entryStack_sp s _
  · rw [State.dr, Fin.getElem_fin, Vector.getElem_set_ne _ _ (by omega)]
    exact (dropUpper_dr _ r hr).trans (by rw [State.dr, saved_d, State.dr])
  · exact (getElem_entryStack_other s _ (by omega)).trans (kept r (by omega))

/-- Beside its own registers, the handler of a trap finds what the save left (60 R670). -/
theorem enterTrap_frame (tcn : BitVec 3) (tin : BitVec 8) (ra : Word) {s : State} (h : saveFails s = false) :
    { enterTrap tcn tin ra s with
      d := (saved true s).d, a := (saved true s).a, psw := (saved true s).psw, icr := (saved true s).icr,
      pc := (saved true s).pc, freeCount := (saved true s).freeCount, completed := (saved true s).completed } =
        saved true s := by
  rw [enterTrap_of_save tcn tin ra h, dropUpper_eq]

/-- The reduced entry of FCU guarantees this much, whatever the implementation keeps (60 R672). -/
theorem takeFcu_entry (s : State) :
    (takeFcu s).dr 15 = 4 ∧ (pswIs s.psw = false → (takeFcu s).ar 10 = s.isp) ∧ pswIo (takeFcu s).psw = 2 ∧
      pswPrs (takeFcu s).psw = 0 ∧ (takeFcu s).icr = setBit s.icr 8 false := by
  refine ⟨Vector.getElem_set_self (by decide), fun other => ?_, ?_, ?_, ?_⟩
  · refine (getElem_entryStack_sp s _).trans ?_
    rw [other, if_neg Bool.false_ne_true]
  · exact extract_setField_inside _ 10 _ 0 2 (by decide) (by decide)
  · exact extract_setField_inside _ 10 _ 2 2 (by decide) (by decide)
  · simp only [takeFcu, dropAfterFcu_icr]

/-- Settles O37: the entry after a save by `enterTrap_of_save`, the one of FCU by `takeFcu_entry`. -/
theorem trapEntry : Obligations.TrapEntry := by
  unfold Obligations.TrapEntry
  intro tcn tin ra len s
  refine ⟨rfl, fun saves => ?_, fun fails => ?_⟩
  · obtain ⟨a11, d15, psw⟩ := enterTrap_handler tcn tin ra saves
    obtain ⟨a10, lower⟩ := enterTrap_registers tcn tin ra saves
    obtain ⟨prs, io, is, gw, cde, cdc⟩ := entryPsw_fields s.psw
    have entered := enterTrap_of_save tcn tin ra saves
    refine ⟨a11, d15, congrArg State.pc entered, a10, psw ▸ prs, psw ▸ io, psw ▸ is, psw ▸ gw, psw ▸ cde, psw ▸ cdc,
      psw ▸ extract_entryPsw s.psw (by decide), fun j => ?_, lower, enterTrap_frame tcn tin ra saves⟩
    rw [← getLsbD_setBit_false, congrArg State.icr entered]
  · obtain ⟨d15, a10, io, prs, icr⟩ := takeFcu_entry s
    rw [enterTrap_of_saveFails tcn tin ra fails]
    refine ⟨rfl, d15, a10, io, prs, fun j => ?_, rfl⟩
    rw [icr, getLsbD_setBit_false]

end Sys2Proof.Machine
end

section
/-!
PROOFS. The system instructions that write a core register or only move on (43 R491 to R504): MTCR, ENABLE, DISABLE, the
sequencing instructions, and RFM.
-/
namespace Sys2Proof.Machine

/-! ### MTCR -/

/-- An MTCR whose event has no action: PRIV first, then the switch of translation that the source leaves undefined. -/
theorem exec_mtcr {s : State} {off : BitVec 16} (len : Len) (a : DReg) (h : EventOff s (crEvent s off)) :
    exec (.mtcr len off a) s = finish s (do
      supervisorOnly s
      stopIf (mmuSwitchBad s off (s.dr a)) (.fault .mmuSwitchUndefined)
      .ok (advance len (mtcrEffect s off (s.dr a)))) := withEvent_of_off h

/-- A privileged instruction outside Supervisor mode is PRIV, whatever comes after its guard (60 R680). -/
theorem finish_supervisorOnly_of_not {s : State} (h : isSupervisor s = false) (f : Unit → Res) :
    finish s (supervisorOnly s >>= f) = .next (enterTrap 1 1 s.pc s) := by
  rw [supervisorOnly, h, Bool.not_false, raiseIf_true, error_bind, finish_trap]
  rfl

theorem supervisorOnly_of_supervisor {s : State} (h : isSupervisor s = true) : supervisorOnly s = .ok () := by
  rw [supervisorOnly, h]
  rfl

theorem csfrWrite_pc (s : State) (r : Csfr) (v : Word) : (csfrWrite s r v).pc = s.pc := by
  cases r with
  | biv | btv | isp | mmuCon | mmuAsi =>
    dsimp only [csfrWrite]
    split <;> rfl
  | _ => rfl

/-- Settles O40: the guards of `exec_mtcr` in their order, then the write of the register or of none. -/
theorem coreRegisterWrites : Obligations.CoreRegisterWrites := by
  unfold Obligations.CoreRegisterWrites
  intro len off a s quiet
  rw [exec_mtcr len a quiet]
  refine ⟨fun user => finish_supervisorOnly_of_not user _, fun supervisor defined => ?_, fun supervisor undefined => ?_⟩
  · rw [supervisorOnly_of_supervisor supervisor, defined, stopIf_false, ok_bind, ok_bind, finish_ok, mtcrEffect]
    refine ⟨fun r named => ?_, fun unnamed => ?_⟩
    · rw [named, advance, csfrWrite_pc]
    · rw [unnamed, advance]
  · rw [supervisorOnly_of_supervisor supervisor, undefined, stopIf_true, ok_bind, error_bind, finish_fault]

/-! ### ENABLE and DISABLE -/

/-- ICR with interrupts enabled (43 R495). -/
theorem setBit_ie_true (w : Word) : setBit w 8 true = w ||| 0x100 := by
  apply BitVec.eq_of_getLsbD_eq
  intro j hj
  have mask : ∀ j < 32, (0x100 : Word).getLsbD j = decide (j = 8) := by decide
  rw [getLsbD_setBit, BitVec.getLsbD_or, mask j hj]
  by_cases h : j = 8 <;> simp [h]

/-- ICR with interrupts disabled (43 R496). -/
theorem setBit_ie_false (w : Word) : setBit w 8 false = w &&& 0xFFFFFEFF := by
  apply BitVec.eq_of_getLsbD_eq
  intro j hj
  have mask : ∀ j < 32, (0xFFFFFEFF : Word).getLsbD j = decide (j ≠ 8) := by decide
  rw [getLsbD_setBit_false, BitVec.getLsbD_and, mask j hj]

/-- Settles O42: the guard of ENABLE and DISABLE is the mode, the others have none. -/
theorem interruptEnableAndSequencing : Obligations.InterruptEnableAndSequencing := by
  unfold Obligations.InterruptEnableAndSequencing
  intro len s on
  have enable : exec (.enable len) s =
      finish s (do raiseIf (isUser0 s) .priv; .ok (advance len { s with icr := setBit s.icr 8 true })) := rfl
  have disable : exec (.disable len) s =
      finish s (do raiseIf (isUser0 s) .priv; .ok (advance len { s with icr := setBit s.icr 8 false })) := rfl
  rw [enable, disable, setBit_ie_true, setBit_ie_false]
  refine ⟨fun user => ?_, fun other => ?_, rfl, rfl, rfl, withEvent_of_off⟩
  · have user0 : isUser0 s = true := decide_eq_true user
    exact ⟨finish_raiseIf_of_true user0 s _ .priv, finish_raiseIf_of_true user0 s _ .priv⟩
  · have not_user0 : isUser0 s = false := decide_eq_false other
    exact ⟨finish_raiseIf_of_false not_user0 s _ .priv, finish_raiseIf_of_false not_user0 s _ .priv⟩

/-! ### RFM -/

/-- RFM with the CDC on, in Supervisor mode: the area is read if the bus answers (43 R503, 60 R701). -/
theorem exec_rfm (len : Len) {s : State} (supervisor : isSupervisor s = true) (on : dbgDe s.dbgsr = true) :
    exec (.rfm len) s = finish s (do
      raiseIf ((addrs s.dcx 16).any (busError s)) .dse
      .ok { (physRead s (addrs s.dcx 16)).2 with
        psw := wordAt (physRead s (addrs s.dcx 16)).1 1 &&& pswMask,
        pcxi := wordAt (physRead s (addrs s.dcx 16)).1 0 &&& pcxiMask,
        a := (s.a.set 10 (wordAt (physRead s (addrs s.dcx 16)).1 2)).set 11 (wordAt (physRead s (addrs s.dcx 16)).1 3),
        pc := evenAddr (s.ar 11) }) := by
  rw [exec, execRfm, supervisorOnly_of_supervisor supervisor, on]
  rfl

/-- RFM whose area the bus answers for: the four words back, and on at A[11] (43 R503). -/
theorem exec_rfm_returns (len : Len) {s : State} (supervisor : isSupervisor s = true) (on : dbgDe s.dbgsr = true)
    (bus : ∀ pa ∈ addrs s.dcx 16, busError s pa = false) :
    exec (.rfm len) s = .next { (physRead s (addrs s.dcx 16)).2 with
      psw := wordAt (physRead s (addrs s.dcx 16)).1 1 &&& pswMask,
      pcxi := wordAt (physRead s (addrs s.dcx 16)).1 0 &&& pcxiMask,
      a := (s.a.set 10 (wordAt (physRead s (addrs s.dcx 16)).1 2)).set 11 (wordAt (physRead s (addrs s.dcx 16)).1 3),
      pc := evenAddr (s.ar 11), completed := true } := by
  rw [exec_rfm len supervisor on]
  exact finish_raiseIf_of_false (List.any_eq_false.mpr fun pa mem => by simp [bus pa mem]) s _ .dse

/-- Settles O47: the guards of RFM in their order. -/
theorem monitorReturn : Obligations.MonitorReturn := by
  unfold Obligations.MonitorReturn
  intro len s
  refine ⟨fun user => finish_supervisorOnly_of_not user _, fun supervisor off => ?_, fun supervisor on bus => ?_,
    fun supervisor on bus => exec_rfm_returns len supervisor on bus⟩
  · rw [exec, execRfm, supervisorOnly_of_supervisor supervisor, off]
    rfl
  · rw [exec_rfm len supervisor on]
    exact finish_raiseIf_of_true (List.any_eq_true.mpr bus) s _ .dse

end Sys2Proof.Machine
end

section
/-!
PROOFS. The breakpoint trap of DEBUG and the return from the monitor (43 R503, 61 R737, R740, R748): what the trap leaves in the
debug context area, and that RFM gives it back.
-/
namespace Sys2Proof.Machine

/-! ### The event -/

/-- DBGSR after a debug event records it (61 R740). -/
theorem eventRecorded_updateDbgsr (s : State) (e : DebugEvent) : EventRecorded s.dbgsr (updateDbgsr s e) e.reg e.code where
  source := by
    apply BitVec.eq_of_getLsbD_eq
    intro j hj
    rw [BitVec.getLsbD_extractLsb', getLsbD_updateDbgsr, if_neg (by omega), if_neg (by omega), if_neg (by omega),
      if_pos (by omega), decide_eq_true hj, Bool.true_and, Nat.add_sub_cancel_left]
  previous := by rw [getLsbD_updateDbgsr]; rfl
  suspend := by rw [getLsbD_updateDbgsr]; rfl
  posted := by rw [getLsbD_updateDbgsr]; rfl
  rest j hj := by
    rw [getLsbD_updateDbgsr, if_neg (by omega), if_neg (by omega), if_neg (by omega), if_neg (by omega)]

/-- The debug controller stays on over an event. -/
theorem dbgDe_updateDbgsr (s : State) (e : DebugEvent) : dbgDe (updateDbgsr s e) = dbgDe s.dbgsr :=
  (eventRecorded_updateDbgsr s e).rest 0 (by decide)

/-- `s` with the event `e` recorded, its Break-Out pulse given and the pc at `ra`: where its action starts (61 R742). -/
def State.recorded (s : State) (e : DebugEvent) (ra : Word) : State :=
  { s with dbgsr := updateDbgsr s e, breakOuts := s.breakOuts + 1, pc := ra }

theorem State.Inv.recorded {s : State} (h : s.Inv) (e : DebugEvent) {ra : Word} (even : ra &&& 1 = 0) :
    (s.recorded e ra).Inv :=
  { h with dbgsr := updateDbgsr_and_reserved e h.dbgsr, pc := even }

theorem AllMemory.recorded {s : State} {pas : List Word} (h : AllMemory s pas) (e : DebugEvent) (ra : Word) :
    AllMemory (s.recorded e ra) pas :=
  fun pa mem => (plainMemory_congr (s := s) (t := s.recorded e ra) rfl (dbgDe_updateDbgsr s e) rfl rfl rfl pa).trans
    (h pa mem)

/-- A breakpoint trap whose area is memory is taken (61 R742, R748). -/
theorem debugEvent_breakpoint {e : DebugEvent} {s : State} (action : evtEvta e.reg = 3)
    (area : AllMemory s (addrs s.dcx 16)) : debugEvent e s = .ok (breakpointTrap (s.recorded e s.pc)) := by
  have good : debugAreaBad s = false := List.any_eq_false.mpr fun pa mem => by simp [area pa mem]
  rw [debugEvent, action, good]
  rfl

section timing
variable {e : DebugEvent} {s : State}

/-- A break-before-make event acts first, and a halt or a trap keeps the instruction from running (61 R737). -/
theorem eventBefore_of_bbm (on : dbgDe s.dbgsr = true) (enabled : evtEnabled s e.reg = true) (bbm : evtBbm e.reg = true) :
    eventBefore e s = (do
      let t ← debugEvent e s
      stopIf (evtDiverts e) (.debugged t)
      .ok t) := by
  rw [eventBefore, on, enabled, bbm]
  rfl

/-- A break-after-make event waits (61 R737). -/
theorem eventBefore_of_bam (bam : evtBbm e.reg = false) : eventBefore e s = .ok s := by
  rw [eventBefore, bam, Bool.and_false]
  rfl

/-- A break-after-make event acts on what the instruction left (61 R737). -/
theorem eventAfter_of_bam (on : dbgDe s.dbgsr = true) (enabled : evtEnabled s e.reg = true) (bam : evtBbm e.reg = false)
    (t : State) : eventAfter e s t = debugEvent e t := by
  rw [eventAfter, on, enabled, bam]
  rfl

end timing

/-- DEBUG with a breakpoint trap as its action takes it before or after itself, as SWEVT.BBM says (61 R734, R737). -/
theorem exec_debug_breakpoint (len : Len) {s : State} (on : dbgDe s.dbgsr = true) (action : evtEvta s.swevt = 3)
    (area : AllMemory s (addrs s.dcx 16)) :
    exec (.debug len) s = .next {
      breakpointTrap (s.recorded (swEvent s) (if evtBbm s.swevt then s.pc else s.pc + lenBytes len)) with
      completed := !evtBbm s.swevt } := by
  have enabled : evtEnabled s (swEvent s).reg = true := by
    rw [evtEnabled, swEvent, action]
    rfl
  have diverts : evtDiverts (swEvent s) = true := by
    rw [evtDiverts, swEvent, action]
    rfl
  show withEvent (swEvent s) (fun s => .ok (advance len s)) s = _
  cases timing : evtBbm s.swevt with
  | true =>
    rw [withEvent, eventBefore_of_bbm on enabled timing, debugEvent_breakpoint action area, ok_bind, diverts, stopIf_true]
    rfl
  | false =>
    have moved : AllMemory (advance len s) (addrs (advance len s).dcx 16) :=
      fun pa mem => (plainMemory_congr rfl rfl rfl rfl rfl pa).trans (area pa mem)
    rw [withEvent, eventBefore_of_bam timing]
    dsimp only
    rw [ok_bind, eventAfter_of_bam on enabled timing, debugEvent_breakpoint action moved, finish_ok]
    rfl

/-! ### The monitor -/

/-- The first state of the monitor that a breakpoint trap at `t` enters, `m` its memory (61 R748); `done` where the
instruction completed first. -/
def State.inMonitor (t : State) (m : List Host.Cell) (done : Bool) : State :=
  { t with mem := m, a := t.a.set 11 t.pc, psw := setField t.psw 8 (0#2 ++ 2#2 ++ 1#1 ++ 0#1), icr := setBit t.icr 8 false,
           pc := evenAddr t.dms, completed := done }

/-- What a breakpoint trap stores (61 R748). -/
def monitorWords (t : State) : List Word := [t.pcxi, t.psw, t.ar 10, t.ar 11]

/-- A breakpoint trap into memory stores its four words and enters the monitor, and nothing else (61 R748). -/
theorem breakpointTrap_memory {t : State} (area : AllMemory t (addrs t.dcx 16)) (done : Bool) :
    { breakpointTrap t with completed := done } =
      t.inMonitor (t.setMemBytes (addrs t.dcx 16) (wordsBytes (monitorWords t))).mem done := by
  rw [breakpointTrap, physWrite_memory area, State.setMemBytes_eq]
  rfl

section inMonitor
variable (t : State) (m : List Host.Cell) (done : Bool)

/-- PSW of the monitor, field by field (61 R748). -/
theorem inMonitor_psw :
    pswIo (t.inMonitor m done).psw = 2 ∧ pswPrs (t.inMonitor m done).psw = 0 ∧ pswGw (t.inMonitor m done).psw = false ∧
      pswIs (t.inMonitor m done).psw = true ∧ (t.inMonitor m done).psw.extractLsb' 0 8 = t.psw.extractLsb' 0 8 := by
  have bit (k : Nat) (hk : 8 ≤ k ∧ k < 14) :
      (t.inMonitor m done).psw.getLsbD k = (0#2 ++ 2#2 ++ 1#1 ++ 0#1).getLsbD (k - 8) := by
    rw [State.inMonitor, getLsbD_setField, if_pos hk, decide_eq_true (show k < 32 by omega), Bool.true_and]
  exact ⟨extract_setField_inside _ 8 _ 2 2 (by decide) (by decide), extract_setField_inside _ 8 _ 4 2 (by decide) (by decide),
    bit 8 (by decide), bit 9 (by decide), extract_setField_other _ _ _ _ _ (.inl (by decide))⟩

theorem isSupervisor_inMonitor : isSupervisor (t.inMonitor m done) = true := by
  rw [isSupervisor, State.inMonitor, getLsbD_setField]
  rfl

theorem icrIe_inMonitor : icrIe (t.inMonitor m done).icr = false := by
  rw [icrIe, State.inMonitor, getLsbD_setBit_false]
  exact Bool.and_false _

theorem ar_inMonitor_eleven : (t.inMonitor m done).ar 11 = t.pc :=
  Vector.getElem_set_self (by decide)

theorem ar_inMonitor_other {r : Fin 16} (h : r ≠ 11) : (t.inMonitor m done).ar r = t.ar r :=
  Vector.getElem_set_ne (by decide) r.isLt fun e => h (Fin.ext e.symm)

theorem memByte_inMonitor (x : State) : (t.inMonitor x.mem done).memByte = x.memByte := rfl

end inMonitor

/-- The entry of the monitor changes nothing that tells memory from a device. -/
theorem AllMemory.inMonitor {t : State} {pas : List Word} (h : AllMemory t pas) (m : List Host.Cell) (done : Bool) :
    AllMemory (t.inMonitor m done) pas :=
  fun pa mem => (plainMemory_congr (s := t) (t := t.inMonitor m done) rfl rfl rfl rfl rfl pa).trans (h pa mem)

/-- The debug context area holds the words of a breakpoint trap at `t` (61 R748). -/
def HoldsMonitorWords (t u : State) : Prop := (addrs t.dcx 16).map u.memByte = wordsBytes (monitorWords t)

/-- What a breakpoint trap into memory stores is there in the monitor, and every other byte is as before. -/
theorem breakpointTrap_area {t : State} (area : AllMemory t (addrs t.dcx 16)) (wf : Memory.wf t.mem = true)
    (done : Bool) :
    ∃ m, { breakpointTrap t with completed := done } = t.inMonitor m done ∧ HoldsMonitorWords t (t.inMonitor m done) ∧
      ∀ pa, pa ∉ addrs t.dcx 16 → (t.inMonitor m done).memByte pa = t.memByte pa := by
  refine ⟨_, breakpointTrap_memory area done, ?_, fun pa outside => ?_⟩
  · rw [HoldsMonitorWords, memByte_inMonitor]
    exact memByte_setMemBytes_all t _ _ wf (addrs_nodup _ _ (by decide)) (by rw [addrs_length, wordsBytes_length]; rfl)
  · rw [memByte_inMonitor]
    exact State.memByte_setMemBytes_other t _ _ pa outside

/-- The four words, as RFM reads them. -/
theorem wordAt_monitorWords (t : State) :
    wordAt (wordsBytes (monitorWords t)) 0 = t.pcxi ∧ wordAt (wordsBytes (monitorWords t)) 1 = t.psw ∧
      wordAt (wordsBytes (monitorWords t)) 2 = t.ar 10 ∧ wordAt (wordsBytes (monitorWords t)) 3 = t.ar 11 := by
  have word (k : Nat) (hk : k < 4) := wordAt_wordsBytes (monitorWords t) k hk
  exact ⟨(Option.some.inj (word 0 (by decide))).symm, (Option.some.inj (word 1 (by decide))).symm,
    (Option.some.inj (word 2 (by decide))).symm, (Option.some.inj (word 3 (by decide))).symm⟩

/-- The four words, as loads of the area read them. -/
theorem HoldsMonitorWords.memWord {t u : State} (h : HoldsMonitorWords t u) :
    u.memWord t.dcx = t.pcxi ∧ u.memWord (t.dcx + 4) = t.psw ∧ u.memWord (t.dcx + 8) = t.ar 10 ∧
      u.memWord (t.dcx + 12) = t.ar 11 := by
  have word (k : Nat) (hk : k < 4) :
      u.memWord (t.dcx + BitVec.ofNat 32 (4 * k)) = wordAt (wordsBytes (monitorWords t)) k := by
    rw [← wordAt_addrs u t.dcx 16 k (by omega), h]
  obtain ⟨pcxi, psw, a10, a11⟩ := wordAt_monitorWords t
  have first := word 0 (by decide)
  rw [Nat.mul_zero, BitVec.add_zero] at first
  exact ⟨first.trans pcxi, (word 1 (by decide)).trans psw, (word 2 (by decide)).trans a10, (word 3 (by decide)).trans a11⟩

/-! ### The return from the monitor -/

/-- The address registers with the two that the area holds put back. -/
theorem set_ten_eleven_back (a : Vector Word 16) (ra : Word) :
    ((a.set 11 ra).set 10 a[(10 : Fin 16)]).set 11 a[(11 : Fin 16)] = a := by
  refine Vector.ext fun i hi => ?_
  simp only [Vector.getElem_set, Fin.getElem_fin]
  by_cases eleven : i = 11
  · subst eleven
    rfl
  · by_cases ten : i = 10
    · subst ten
      rfl
    · rw [if_neg (Ne.symm eleven), if_neg (Ne.symm ten), if_neg (Ne.symm eleven)]

/-- RFM in the first state of the monitor gives all back but ICR.IE and the bytes of the area, and goes on at the pc that the
trap was taken at (43 R503, 61 R748). -/
theorem exec_rfm_inMonitor (len : Len) {t : State} (h : t.Inv) (on : dbgDe t.dbgsr = true)
    (area : AllMemory t (addrs t.dcx 16)) {m : List Host.Cell} {done : Bool}
    (holds : HoldsMonitorWords t (t.inMonitor m done)) :
    exec (.rfm len) (t.inMonitor m done) = .next { t with mem := m, icr := setBit t.icr 8 false, completed := true } := by
  have memory : AllMemory (t.inMonitor m done) (addrs t.dcx 16) := area.inMonitor m done
  have read : physRead (t.inMonitor m done) (addrs t.dcx 16) = (wordsBytes (monitorWords t), t.inMonitor m done) := by
    rw [physRead_memory memory, holds]
  have bus (pa : Word) (mem : pa ∈ addrs t.dcx 16) : busError (t.inMonitor m done) pa = false := by
    obtain ⟨-, -, answers⟩ := (plainMemory_eq_true _ pa).mp (memory pa mem)
    exact answers
  obtain ⟨pcxi, psw, a10, a11⟩ := wordAt_monitorWords t
  have a : ((t.inMonitor m done).a.set 10 (t.ar 10)).set 11 (t.ar 11) = t.a := set_ten_eleven_back t.a t.pc
  have pc : evenAddr ((t.inMonitor m done).ar 11) = t.pc := by rw [ar_inMonitor_eleven, evenAddr_of_even h.pc]
  rw [exec_rfm_returns len (isSupervisor_inMonitor t m done) on bus, show (t.inMonitor m done).dcx = t.dcx from rfl, read, pc,
    pcxi, psw, a10, a11, a, and_eq_self_of_clear h.pcxi, and_eq_self_of_clear h.psw]
  rfl

/-- Settles O46: the trap by `exec_debug_breakpoint`, the return by `exec_rfm_inMonitor`. -/
theorem breakpointTrapAndReturn : Obligations.BreakpointTrapAndReturn := by
  unfold Obligations.BreakpointTrapAndReturn
  intro len len' s h on action area ra
  have even : ra &&& 1 = 0 := by
    dsimp only [ra]
    split
    · exact h.pc
    · exact add_and_one h.pc (lenBytes_and_one len)
  have taken := exec_debug_breakpoint len on action area
  have recorded := eventRecorded_updateDbgsr s (swEvent s)
  have on' : dbgDe (s.recorded (swEvent s) ra).dbgsr = true := (dbgDe_updateDbgsr s (swEvent s)).trans on
  have area' := area.recorded (swEvent s) ra
  have h' := h.recorded (swEvent s) even
  obtain ⟨m, entered, holds, others⟩ := breakpointTrap_area (t := s.recorded (swEvent s) ra) area' h.mem (!evtBbm s.swevt)
  obtain ⟨io, prs, gw, is, low⟩ := inMonitor_psw (s.recorded (swEvent s) ra) m (!evtBbm s.swevt)
  obtain ⟨w0, w1, w2, w3⟩ := holds.memWord
  refine ⟨_, _, taken.trans (congrArg Host.Outcome.next entered), evenAddr_of_even h.dms, ar_inMonitor_eleven _ m _, io, prs,
    gw, is, low, icrIe_inMonitor _ m _, rfl, ar_inMonitor_other _ m _ (by decide), w0, w1, w2, w3, others, recorded,
    exec_rfm_inMonitor len' h' on' area' holds, rfl, ?_⟩
  rw [← setBit_ie_false]
  rfl

end Sys2Proof.Machine
end

section
/-!
PROOFS. The pages of the MMU as numbers (21 R240, R241): the addresses that a TTE translates, what it translates them to, and
when two pages meet; then the TLBs as slots, and the slot that a lookup finds.
-/
namespace Sys2Proof.Machine

/-! ### Page numbers -/

/-- The number of offset bits of a page: 10 for 1 Kbyte to 16 for 64 Kbyte (21 R240). -/
def pageShift (psz : BitVec 2) : Nat := 10 + 2 * psz.toNat

/-- The first address that the VPN of a TTE names. -/
def Tte.base (t : Tte) : Nat := t.vpn.toNat * 2 ^ 10

/-- A page number without the bits that its page does not use is rounded down to a whole page. -/
theorem and_not_pageUnused_toNat (x : BitVec 22) (psz : BitVec 2) :
    (x &&& ~~~pageUnused psz).toNat * 2 ^ 10 = x.toNat * 2 ^ 10 / 2 ^ pageShift psz * 2 ^ pageShift psz := by
  have whole : x.toNat / 2 ^ (2 * psz.toNat) * 2 ^ (2 * psz.toNat) < 2 ^ 22 :=
    Nat.lt_of_le_of_lt (Nat.div_mul_le_self _ _) x.isLt
  have rounded : (x &&& ~~~pageUnused psz).toNat = x.toNat / 2 ^ (2 * psz.toNat) * 2 ^ (2 * psz.toNat) := by
    rw [pageUnused, BitVec.not_not, ← BitVec.shiftLeft_ushiftRight, BitVec.toNat_shiftLeft, BitVec.toNat_ushiftRight,
      Nat.shiftLeft_eq, Nat.shiftRight_eq_div_pow, Nat.mod_eq_of_lt whole]
  rw [rounded, pageShift, Nat.pow_add, Nat.mul_comm (2 ^ 10), Nat.mul_div_mul_right _ _ (by decide), Nat.mul_assoc]

/-- Two page numbers agree beside the bits their page does not use exactly where they name one page. -/
theorem and_not_pageUnused_inj (x y : BitVec 22) (psz : BitVec 2) :
    x &&& ~~~pageUnused psz = y &&& ~~~pageUnused psz ↔
      x.toNat * 2 ^ 10 / 2 ^ pageShift psz = y.toNat * 2 ^ 10 / 2 ^ pageShift psz := by
  rw [← Nat.mul_left_inj (a := 2 ^ pageShift psz) (Nat.ne_of_gt (Nat.two_pow_pos _)), ← and_not_pageUnused_toNat, ← and_not_pageUnused_toNat,
    Nat.mul_left_inj (by decide), BitVec.toNat_eq]

/-- The bits of an address above its kilobyte. -/
theorem extractLsb'_kilobyte (va : Word) : (va.extractLsb' 10 22).toNat = va.toNat / 2 ^ 10 := by
  rw [BitVec.extractLsb'_toNat, Nat.shiftRight_eq_div_pow, Nat.mod_eq_of_lt (by have := va.isLt; omega)]

/-- The page of an address does not depend on its low 10 bits. -/
theorem kilobyte_div (x : Nat) (psz : BitVec 2) : x / 2 ^ 10 * 2 ^ 10 / 2 ^ pageShift psz = x / 2 ^ pageShift psz := by
  rw [pageShift, Nat.pow_add, ← Nat.div_div_eq_div_mul, ← Nat.div_div_eq_div_mul, Nat.mul_div_cancel _ (by decide)]

/-- `vpn(va, sz)` is the first address of the page of `va` (21 R240). -/
theorem vpnOf_toNat (va : Word) (psz : BitVec 2) :
    (vpnOf va psz).toNat * 2 ^ 10 = va.toNat / 2 ^ pageShift psz * 2 ^ pageShift psz := by
  rw [vpnOf, and_not_pageUnused_toNat, extractLsb'_kilobyte, kilobyte_div]

/-- `vpn` of a page number put in front of a kilobyte. -/
theorem vpnOf_append (x : BitVec 22) (psz : BitVec 2) : vpnOf (x ++ 0#10) psz = x &&& ~~~pageUnused psz := by
  rw [vpnOf, BitVec.extractLsb'_append_eq_left]

/-! ### What a TTE translates -/

/-- `matches(t, va)` in numbers: valid, of the page of `va`, and global or of the ASI (21 R241). -/
theorem hits_iff {t : Tte} {asi : BitVec 5} {va : Word} :
    t.hits asi va = true ↔ t.v = true ∧ t.base / 2 ^ pageShift t.psz = va.toNat / 2 ^ pageShift t.psz ∧
      (t.g = true ∨ t.asi = asi) := by
  have page : t.vpn &&& ~~~pageUnused t.psz = vpnOf va t.psz ↔
      t.base / 2 ^ pageShift t.psz = va.toNat / 2 ^ pageShift t.psz := by
    rw [vpnOf, and_not_pageUnused_inj, extractLsb'_kilobyte, kilobyte_div]
    rfl
  simp [Tte.hits, page, and_assoc]

/-- An invalid TTE translates nothing. -/
theorem hits_of_not_valid {t : Tte} (h : t.v = false) (asi : BitVec 5) (va : Word) : t.hits asi va = false := by
  simp [Tte.hits, h]

/-- The offset bits of a page. -/
theorem pageUnused_append (psz : BitVec 2) :
    pageUnused psz ++ BitVec.allOnes 10 = BitVec.ofNat 32 (2 ^ pageShift psz - 1) := by revert psz; decide

theorem pageShift_le (psz : BitVec 2) : pageShift psz ≤ 16 := by
  have := psz.isLt
  unfold pageShift
  omega

/-- `{t.PPN, offset(va, sz)}` as a number (21 R240). -/
theorem translate_toNat (t : Tte) (va : Word) :
    (t.translate va).toNat =
      t.ppn.toNat * 2 ^ 10 / 2 ^ pageShift t.psz * 2 ^ pageShift t.psz + va.toNat % 2 ^ pageShift t.psz := by
  have frame : ((t.ppn &&& ~~~pageUnused t.psz) ++ 0#10).toNat =
      2 ^ pageShift t.psz * (t.ppn.toNat * 2 ^ 10 / 2 ^ pageShift t.psz) := by
    rw [BitVec.toNat_append, BitVec.toNat_ofNat, Nat.zero_mod, Nat.or_zero, Nat.shiftLeft_eq, and_not_pageUnused_toNat,
      Nat.mul_comm]
  have small : 2 ^ pageShift t.psz - 1 < 2 ^ 32 := by
    have := Nat.pow_le_pow_right (n := 2) (by decide) (pageShift_le t.psz)
    omega
  have offset : (va &&& (pageUnused t.psz ++ BitVec.allOnes 10)).toNat = va.toNat % 2 ^ pageShift t.psz := by
    rw [pageUnused_append, BitVec.toNat_and, BitVec.toNat_ofNat, Nat.mod_eq_of_lt small, Nat.and_two_pow_sub_one_eq_mod]
  rw [Tte.translate, BitVec.toNat_or, frame, offset, ← Nat.two_pow_add_eq_or_of_lt (Nat.mod_lt _ (Nat.two_pow_pos _)),
    Nat.mul_comm]

/-! ### When pages meet -/

/-- Two numbers on one page are on one page of every larger size. -/
theorem div_pow_eq_of_le {x y a b : Nat} (h : x / 2 ^ a = y / 2 ^ a) (le : a ≤ b) : x / 2 ^ b = y / 2 ^ b := by
  obtain ⟨c, rfl⟩ := Nat.exists_eq_add_of_le le
  rw [Nat.pow_add, ← Nat.div_div_eq_div_mul, ← Nat.div_div_eq_div_mul, h]

/-- The bits that one of two pages does not use are those of the larger. -/
theorem pageUnused_or (p q : BitVec 2) :
    ∃ r, pageUnused p ||| pageUnused q = pageUnused r ∧ pageShift r = max (pageShift p) (pageShift q) := by
  rcases Nat.le_total p.toNat q.toNat with le | le
  · exact ⟨q, by revert p q; decide, by unfold pageShift; omega⟩
  · exact ⟨p, by revert p q; decide, by unfold pageShift; omega⟩

/-- Two pages intersect where their first addresses lie on one page of the larger size (44 R531). -/
theorem pagesMeet_iff {t u : Tte} :
    pagesMeet t u = true ↔ t.base / 2 ^ max (pageShift t.psz) (pageShift u.psz) =
      u.base / 2 ^ max (pageShift t.psz) (pageShift u.psz) := by
  obtain ⟨r, larger, shift⟩ := pageUnused_or t.psz u.psz
  have differ (m : BitVec 22) : (t.vpn ^^^ u.vpn) &&& m = 0 ↔ t.vpn &&& m = u.vpn &&& m := by
    have distrib : (t.vpn ^^^ u.vpn) &&& m = (t.vpn &&& m) ^^^ (u.vpn &&& m) := by
      ext i
      simp [Bool.and_xor_distrib_right]
    rw [distrib]
    exact BitVec.xor_eq_zero_iff
  rw [pagesMeet, decide_eq_true_iff, larger, differ, and_not_pageUnused_inj, shift]
  rfl

/-- Two TTEs that translate one address have pages that meet. -/
theorem pagesMeet_of_hits {t u : Tte} {asi : BitVec 5} {va : Word} (ht : t.hits asi va = true) (hu : u.hits asi va = true) :
    pagesMeet t u = true := by
  obtain ⟨-, pageT, -⟩ := hits_iff.mp ht
  obtain ⟨-, pageU, -⟩ := hits_iff.mp hu
  exact pagesMeet_iff.mpr ((div_pow_eq_of_le pageT (Nat.le_max_left _ _)).trans
    (div_pow_eq_of_le pageU (Nat.le_max_right _ _)).symm)

/-! ### The slots of the TLBs -/

/-- The TTEs of both TLBs are those of the slots. -/
theorem mem_tlbs_iff {s : State} {e : Tte} : e ∈ s.tlbA ++ s.tlbB ↔ ∃ p, slotTte s p = some e := by
  rw [List.mem_append, List.mem_iff_getElem?, List.mem_iff_getElem?]
  constructor
  · rintro (⟨k, there⟩ | ⟨k, there⟩)
    · exact ⟨(false, k), there⟩
    · exact ⟨(true, k), there⟩
  · rintro ⟨⟨tlb, k⟩, there⟩
    cases tlb with
    | false => exact .inl ⟨k, there⟩
    | true => exact .inr ⟨k, there⟩

/-- The TTE that a lookup finds stands in a slot and translates the address. -/
theorem lookupTte_some {s : State} {va : Word} {e : Tte} (h : lookupTte s va = some e) :
    (∃ p, slotTte s p = some e) ∧ e.hits (asiOf s) va = true :=
  ⟨mem_tlbs_iff.mp (List.mem_of_find?_eq_some h), List.find?_some (p := fun t : Tte => t.hits (asiOf s) va) h⟩

theorem lookupTte_eq_none_iff {s : State} {va : Word} :
    lookupTte s va = none ↔ ∀ p e, slotTte s p = some e → e.hits (asiOf s) va = false := by
  simp only [lookupTte, List.find?_eq_none, Bool.not_eq_true]
  exact ⟨fun h p e there => h e (mem_tlbs_iff.mpr ⟨p, there⟩), fun h e mem =>
    let ⟨p, there⟩ := mem_tlbs_iff.mp mem
    h p e there⟩

/-- Where one slot alone translates an address, a lookup finds its TTE. -/
theorem lookupTte_of_only {s : State} {va : Word} {p : Bool × Nat} {e : Tte} (there : slotTte s p = some e)
    (hit : e.hits (asiOf s) va = true) (only : ∀ q f, q ≠ p → slotTte s q = some f → f.hits (asiOf s) va = false) :
    lookupTte s va = some e := by
  cases found : lookupTte s va with
  | none => simp [lookupTte_eq_none_iff.mp found p e there] at hit
  | some f =>
    obtain ⟨⟨q, at_q⟩, hit_f⟩ := lookupTte_some found
    by_cases same : q = p
    · rw [← there, ← at_q, same]
    · simp [only q f same at_q] at hit_f

end Sys2Proof.Machine
end

section
/-!
PROOFS. The MMU instructions (44 R530 to R539): their guards, the invalidation of TTEs, the probes, and TLBMAP.
-/
namespace Sys2Proof.Machine

/-! ### The guards -/

/-- With no MMU an MMU instruction is UOPC, whatever comes after its guard (44 R530). -/
theorem finish_mmuPrologue_absent {s : State} (absent : mmuNone s.mmuCon = true) (f : Unit → Res) :
    finish s (mmuPrologue s >>= f) = .next (enterTrap 2 2 s.pc s) := by
  rw [mmuPrologue, absent, raiseIf_true, error_bind, error_bind, finish_trap]
  rfl

/-- With an MMU, outside Supervisor mode, an MMU instruction is PRIV (44 R530). -/
theorem finish_mmuPrologue_user {s : State} (there : mmuNone s.mmuCon = false) (user : isSupervisor s = false)
    (f : Unit → Res) : finish s (mmuPrologue s >>= f) = .next (enterTrap 1 1 s.pc s) := by
  rw [mmuPrologue, there, raiseIf_false, ok_bind, finish_supervisorOnly_of_not user]

/-- With an MMU, in Supervisor mode, the effect of an MMU instruction comes about. -/
theorem finish_mmuPrologue_ok {s : State} (there : mmuNone s.mmuCon = false) (supervisor : isSupervisor s = true)
    (t : State) : finish s (mmuPrologue s >>= fun _ => .ok t) = .next { t with completed := true } := by
  rw [(mmuPrologue_eq_ok s ()).mpr ⟨there, supervisor⟩, ok_bind, finish_ok]

section exec

variable (len : Len) (a : DReg) (s : State)

theorem exec_tlbdemap : exec (.tlbdemap len a) s = finish s (mmuPrologue s >>= fun _ =>
    .ok (advance len { s with tlbA := demap s (s.dr a) s.tlbA, tlbB := demap s (s.dr a) s.tlbB })) := rfl

theorem exec_tlbflushA : exec (.tlbflushA len) s = finish s (mmuPrologue s >>= fun _ =>
    .ok (advance len { s with tlbA := flush s.tlbA })) := rfl

theorem exec_tlbflushB : exec (.tlbflushB len) s = finish s (mmuPrologue s >>= fun _ =>
    .ok (advance len { s with tlbB := flush s.tlbB })) := rfl

theorem exec_tlbprobeA : exec (.tlbprobeA len a) s = finish s (mmuPrologue s >>= fun _ =>
    .ok (advance len (probeAt s (indexOf s (s.dr a))))) := rfl

theorem exec_tlbprobeI : exec (.tlbprobeI len a) s = finish s (mmuPrologue s >>= fun _ =>
    .ok (advance len (probeAt s (some ((s.dr a).extractLsb' 0 8).toNat)))) := rfl

theorem exec_tlbmap_odd (odd : a.val % 2 = 1) : exec (.tlbmap len a) s = .next (enterTrap 2 3 s.pc s) := by
  have odd_pair : oddPair a = true := decide_eq_true odd
  rw [exec, execTlbmap, odd_pair, opd, raiseIf_true, error_bind, finish_trap]
  rfl

theorem exec_tlbmap_even (even : a.val % 2 = 0) : exec (.tlbmap len a) s = finish s (mmuPrologue s >>= fun _ =>
    .ok (advance len (tlbmapEffect s (s.dr a) (s.dr (pairOdd a))))) := by
  rw [exec, execTlbmap, oddPair_eq_false even]
  rfl

/-- The MMU instructions without a pair have the prologue for their only guard. -/
theorem exec_mmu_unpaired {i : Instr}
    (hi : i ∈ [.tlbdemap len a, .tlbflushA len, .tlbflushB len, .tlbprobeA len a, .tlbprobeI len a]) :
    ∃ f : Unit → Res, exec i s = finish s (mmuPrologue s >>= f) := by
  simp only [List.mem_cons, List.not_mem_nil, or_false] at hi
  rcases hi with rfl | rfl | rfl | rfl | rfl
  · exact ⟨_, exec_tlbdemap len a s⟩
  · exact ⟨_, exec_tlbflushA len s⟩
  · exact ⟨_, exec_tlbflushB len s⟩
  · exact ⟨_, exec_tlbprobeA len a s⟩
  · exact ⟨_, exec_tlbprobeI len a s⟩

end exec

/-- Settles O48: the pair's guard of TLBMAP first, then the prologue that all six share. -/
theorem mmuInstructionTraps : Obligations.MmuInstructionTraps := by
  unfold Obligations.MmuInstructionTraps
  intro len a s
  refine ⟨exec_tlbmap_odd len a s, fun absent => ⟨fun i hi => ?_, fun even => ?_⟩,
    fun there user => ⟨fun i hi => ?_, fun even => ?_⟩⟩
  · obtain ⟨f, guarded⟩ := exec_mmu_unpaired len a s hi
    rw [guarded, finish_mmuPrologue_absent absent]
  · rw [exec_tlbmap_even len a s even, finish_mmuPrologue_absent absent]
  · obtain ⟨f, guarded⟩ := exec_mmu_unpaired len a s hi
    rw [guarded, finish_mmuPrologue_user there user]
  · rw [exec_tlbmap_even len a s even, finish_mmuPrologue_user there user]

/-! ### Invalidation -/

/-- A stronger test finds the same first element where that passes it. -/
theorem find?_eq_some_of_stronger {α : Type} {p q : α → Bool} {l : List α} {e : α} (h : l.find? p = some e)
    (stronger : ∀ x, q x = true → p x = true) (pass : q e = true) : l.find? q = some e := by
  obtain ⟨-, before, after, rfl, fail⟩ := List.find?_eq_some_iff_append.mp h
  refine List.find?_eq_some_iff_append.mpr ⟨pass, before, after, rfl, fun x mem => ?_⟩
  have not_p := fail x mem
  cases hq : q x with
  | false => rfl
  | true => simp [stronger x hq] at not_p

/-- A TTE after TLBDEMAP of `va`: invalid if it translates `va`, else as it is (44 R533). -/
def Tte.demapped (asi : BitVec 5) (va : Word) (e : Tte) : Tte := if e.hits asi va then { e with v := false } else e

theorem demapped_of_hits {asi : BitVec 5} {va : Word} {e : Tte} (h : e.hits asi va = true) :
    e.demapped asi va = { e with v := false } := if_pos h

theorem demapped_of_not_hits {asi : BitVec 5} {va : Word} {e : Tte} (h : e.hits asi va = false) : e.demapped asi va = e := by
  simp [Tte.demapped, h]

/-- What a demapped TTE translates, the TTE translated before, and it is not the address demapped. -/
theorem hits_demapped {asi : BitVec 5} {va vb : Word} {e : Tte} (h : (e.demapped asi va).hits asi vb = true) :
    e.hits asi va = false ∧ e.hits asi vb = true := by
  cases hit : e.hits asi va with
  | false => exact ⟨rfl, by rwa [demapped_of_not_hits hit] at h⟩
  | true =>
    rw [demapped_of_hits hit, hits_of_not_valid rfl] at h
    exact absurd h (by decide)

/-- TLBDEMAP slot by slot. -/
theorem slotTte_demap (s : State) (va : Word) (p : Bool × Nat) :
    slotTte { s with tlbA := demap s va s.tlbA, tlbB := demap s va s.tlbB } p =
      (slotTte s p).map (Tte.demapped (asiOf s) va) := by
  obtain ⟨tlb, k⟩ := p
  cases tlb <;> exact List.getElem?_map

/-- TLBDEMAP as seen by a lookup. -/
theorem lookupTte_demap (s : State) (va vb : Word) :
    lookupTte { s with tlbA := demap s va s.tlbA, tlbB := demap s va s.tlbB } vb =
      ((s.tlbA ++ s.tlbB).find? fun e => (e.demapped (asiOf s) va).hits (asiOf s) vb).map
        (Tte.demapped (asiOf s) va) := by
  have both : demap s va s.tlbA ++ demap s va s.tlbB = (s.tlbA ++ s.tlbB).map (Tte.demapped (asiOf s) va) :=
    List.map_append.symm
  exact (congrArg (List.find? _) both).trans List.find?_map

theorem lookupTte_demap_same (s : State) (va : Word) :
    lookupTte { s with tlbA := demap s va s.tlbA, tlbB := demap s va s.tlbB } va = none := by
  rw [lookupTte_demap, Option.map_eq_none_iff, List.find?_eq_none]
  intro e _ hit
  obtain ⟨miss, hit'⟩ := hits_demapped hit
  simp [miss] at hit'

theorem lookupTte_demap_other {s : State} {va vb : Word} {e : Tte} (found : lookupTte s vb = some e)
    (other : e.hits (asiOf s) va = false) :
    lookupTte { s with tlbA := demap s va s.tlbA, tlbB := demap s va s.tlbB } vb = some e := by
  have kept := demapped_of_not_hits other
  have first := find?_eq_some_of_stronger (q := fun e => (e.demapped (asiOf s) va).hits (asiOf s) vb) found
    (fun _ hit => (hits_demapped hit).2) (by rw [kept]; exact (lookupTte_some found).2)
  rw [lookupTte_demap, first, Option.map_some, kept]

/-- Settles O50: TLBDEMAP by what it does to one slot, the flushes by what they do to one TTE. -/
theorem tlbInvalidation : Obligations.TlbInvalidation := by
  unfold Obligations.TlbInvalidation
  intro len a s there supervisor
  rw [exec_tlbdemap, exec_tlbflushA, exec_tlbflushB, finish_mmuPrologue_ok there supervisor,
    finish_mmuPrologue_ok there supervisor, finish_mmuPrologue_ok there supervisor]
  refine ⟨⟨_, rfl, lookupTte_demap_same s _, fun va e => lookupTte_demap_other, slotTte_demap s _, rfl⟩,
    ⟨_, rfl, fun k => List.getElem?_map⟩, ⟨_, rfl, fun k => List.getElem?_map⟩⟩

/-! ### Probes -/

/-- MMU_TVA and MMU_TPA of `t` hold the fields of `e` (44 R537). -/
def Reports (t : State) (e : Tte) : Prop :=
  t.mmuTva.extractLsb' 24 5 = e.asi ∧ t.mmuTva.extractLsb' 0 22 = vpnOf (e.vpn ++ 0#10) e.psz ∧
  t.mmuTpa.getLsbD 31 = true ∧ t.mmuTpa.getLsbD 30 = e.xe ∧ t.mmuTpa.getLsbD 29 = e.we ∧
  t.mmuTpa.getLsbD 28 = e.re ∧ t.mmuTpa.getLsbD 27 = e.g ∧ t.mmuTpa.getLsbD 26 = e.c ∧
  t.mmuTpa.extractLsb' 24 2 = e.psz ∧ t.mmuTpa.extractLsb' 0 22 = vpnOf (e.ppn ++ 0#10) e.psz

/-- The second of four fields put together, above the two low ones. -/
theorem extractLsb'_second {n m k l : Nat} (w : BitVec n) (x : BitVec m) (y : BitVec k) (z : BitVec l) :
    (w ++ x ++ y ++ z).extractLsb' (l + k) m = x := by
  rw [BitVec.extractLsb'_append_eq_of_le (Nat.le_add_right l k), Nat.add_sub_cancel_left,
    BitVec.extractLsb'_append_eq_of_le (Nat.le_refl k), Nat.sub_self, BitVec.extractLsb'_append_eq_right]

theorem reports_probeResult (s : State) (e : Tte) (i : Nat) : Reports (probeResult s e i) e := by
  rw [Reports, vpnOf_append, vpnOf_append]
  refine ⟨extractLsb'_second _ _ _ _, BitVec.extractLsb'_append_eq_right, ?_, ?_, ?_, ?_, ?_, ?_,
    extractLsb'_second _ _ _ _, BitVec.extractLsb'_append_eq_right⟩
  all_goals
    simp only [probeResult, BitVec.getLsbD_append]
    simp

theorem probeResult_mmuTpx (s : State) (e : Tte) {i : Nat} (h : i < 256) : (probeResult s e i).mmuTpx.toNat = i := by
  simp only [probeResult, BitVec.toNat_setWidth, BitVec.toNat_ofNat]
  omega

theorem probeMiss_not_valid (s : State) : (probeMiss s).mmuTpa.getLsbD 31 = false := by simp [probeMiss]

theorem probeAt_valid {s : State} {i : Nat} {e : Tte} (there : tteAt s i = some e) (valid : e.v = true) :
    probeAt s (some i) = probeResult s e i := by
  simp [probeAt, there, valid]

theorem probeAt_invalid {s : State} {i : Nat} (h : ∀ e, tteAt s i = some e → e.v = false) :
    probeAt s (some i) = probeMiss s := by
  cases there : tteAt s i with
  | none => simp [probeAt, there]
  | some e => simp [probeAt, there, h e there]

/-- A probe finds a TTE or misses. -/
theorem probeAt_cases (s : State) (i : Option Nat) : probeAt s i = probeMiss s ∨ ∃ e k, probeAt s i = probeResult s e k := by
  unfold probeAt
  split
  · exact .inl rfl
  · split
    · split
      · exact .inr ⟨_, _, rfl⟩
      · exact .inl rfl
    · exact .inl rfl

/-- A probe that has ended changes the three result registers, the pc and the number of the free values alone. -/
theorem probe_frame (len : Len) (s : State) (i : Option Nat) :
    { advance len (probeAt s i) with
      mmuTva := s.mmuTva, mmuTpa := s.mmuTpa, mmuTpx := s.mmuTpx, completed := true } =
    { s with freeCount := (probeAt s i).freeCount, pc := s.pc + lenBytes len, completed := true } := by
  rcases probeAt_cases s i with miss | ⟨e, k, found⟩
  · rw [miss]
    rfl
  · rw [found]
    rfl

/-- An element found stands at the index found. -/
theorem findIdx?_of_find? {α : Type} {p : α → Bool} {l : List α} {e : α} (h : l.find? p = some e) :
    ∃ k, l.findIdx? p = some k ∧ l[k]? = some e := by
  obtain ⟨pass, k, lt, rfl, before⟩ := List.find?_eq_some_iff_getElem.mp h
  exact ⟨k, List.findIdx?_eq_some_iff_getElem.mpr ⟨lt, pass, fun j hj => by simpa using before j hj⟩,
    List.getElem?_eq_getElem lt⟩

theorem findIdx?_of_find?_none {α : Type} {p : α → Bool} {l : List α} (h : l.find? p = none) : l.findIdx? p = none :=
  List.findIdx?_eq_none_iff.mpr fun x mem => by simpa using List.find?_eq_none.mp h x mem

/-- The index of the TTE that a lookup finds (44 R535): a TLB has at most 128 entries. -/
theorem indexOf_of_lookup {s : State} {va : Word} {e : Tte} (h : s.Inv) (found : lookupTte s va = some e) :
    ∃ i, indexOf s va = some i ∧ i < 256 ∧ tteAt s i = some e := by
  have size := s.platform.tlbTsz.isLt
  have lengthA := h.tlbA
  have lengthB := h.tlbB
  rw [lookupTte, List.find?_append] at found
  cases inA : s.tlbA.find? fun t => t.hits (asiOf s) va with
  | some f =>
    obtain ⟨k, index, there⟩ := findIdx?_of_find? inA
    obtain ⟨lt, -⟩ := List.getElem?_eq_some_iff.mp there
    have low : k < 128 := by omega
    rw [inA, Option.some_or] at found
    exact ⟨k, by rw [indexOf, index], by omega, by rw [tteAt, if_pos low, there, found]⟩
  | none =>
    rw [inA, Option.none_or] at found
    obtain ⟨k, index, there⟩ := findIdx?_of_find? found
    obtain ⟨lt, -⟩ := List.getElem?_eq_some_iff.mp there
    refine ⟨128 + k, ?_, by omega, ?_⟩
    · rw [indexOf, findIdx?_of_find?_none inA, index]
      rfl
    · rw [tteAt, if_neg (by omega), Nat.add_sub_cancel_left, there]

theorem indexOf_of_lookup_none {s : State} {va : Word} (missing : lookupTte s va = none) : indexOf s va = none := by
  rw [lookupTte, List.find?_append, Option.or_eq_none_iff] at missing
  obtain ⟨noneA, noneB⟩ := missing
  rw [indexOf, findIdx?_of_find?_none noneA, findIdx?_of_find?_none noneB]
  rfl

/-- Settles O51: both probes are `probeAt`, TLBPROBE.A at the index of the TTE that a lookup finds. -/
theorem tlbProbes : Obligations.TlbProbes := by
  unfold Obligations.TlbProbes
  intro len a s there supervisor i entry reports only
  have index : ((s.dr a).extractLsb' 0 8).toNat = i := by
    rw [BitVec.extractLsb'_toNat, Nat.shiftRight_zero]
  have small : i < 256 := Nat.mod_lt _ (by decide)
  rw [exec_tlbprobeI, exec_tlbprobeA, finish_mmuPrologue_ok there supervisor, finish_mmuPrologue_ok there supervisor, index]
  refine ⟨⟨_, rfl, probe_frame len s _, fun e found valid => ?_, fun invalid => ?_⟩,
    ⟨_, rfl, probe_frame len s _, fun missing => ?_, fun h e found => ?_⟩⟩
  · rw [probeAt_valid found valid]
    exact ⟨reports_probeResult s e i, probeResult_mmuTpx s e small⟩
  · rw [probeAt_invalid invalid]
    exact probeMiss_not_valid s
  · rw [indexOf_of_lookup_none missing]
    exact probeMiss_not_valid s
  · obtain ⟨k, indexed, lt, at_k⟩ := indexOf_of_lookup h found
    obtain ⟨valid, -⟩ := hits_iff.mp (lookupTte_some found).2
    rw [indexed, probeAt_valid at_k valid]
    have tpx := probeResult_mmuTpx s e lt
    exact ⟨reports_probeResult s e k, (congrArg (tteAt s) tpx).trans at_k⟩

/-! ### TLBMAP: when it is undefined -/

theorem newTte_psz (s : State) (lo hi : Word) : (newTte s lo hi).psz = hi.extractLsb' 24 2 := rfl

theorem newTte_base (s : State) (lo hi : Word) : (newTte s lo hi).base =
    lo.toNat / 2 ^ pageShift (hi.extractLsb' 24 2) * 2 ^ pageShift (hi.extractLsb' 24 2) := vpnOf_toNat lo _

theorem newTte_ppn (s : State) (lo hi : Word) :
    (newTte s lo hi).ppn.toNat * 2 ^ 10 = (hi.extractLsb' 0 22).toNat * 2 ^ 10 / 2 ^ pageShift (hi.extractLsb' 24 2) *
      2 ^ pageShift (hi.extractLsb' 24 2) := and_not_pageUnused_toNat _ _

/-- A page rounded down is the page itself, of its own and of every larger size. -/
theorem div_mul_div_of_le (x : Nat) {a b : Nat} (le : a ≤ b) : x / 2 ^ a * 2 ^ a / 2 ^ b = x / 2 ^ b :=
  div_pow_eq_of_le (Nat.mul_div_cancel _ (Nat.two_pow_pos _)) le

/-- The new TTE translates the addresses of its page (21 R241). -/
theorem newTte_hits_iff {s : State} {lo hi va : Word} : (newTte s lo hi).hits (asiOf s) va = true ↔
    va.toNat / 2 ^ pageShift (hi.extractLsb' 24 2) = lo.toNat / 2 ^ pageShift (hi.extractLsb' 24 2) := by
  have page := div_mul_div_of_le lo.toNat (Nat.le_refl (pageShift (hi.extractLsb' 24 2)))
  rw [hits_iff, newTte_base]
  exact ⟨fun ⟨_, same, _⟩ => same.symm.trans page, fun same => ⟨rfl, page.trans same.symm, .inr rfl⟩⟩

/-- A page meets the page of TLBMAP (44 R531). -/
theorem pagesMeet_newTte {s : State} {lo hi : Word} {e : Tte} : pagesMeet e (newTte s lo hi) = true ↔
    e.base / 2 ^ max (pageShift (hi.extractLsb' 24 2)) (pageShift e.psz) =
      lo.toNat / 2 ^ max (pageShift (hi.extractLsb' 24 2)) (pageShift e.psz) := by
  rw [pagesMeet_iff, newTte_base, newTte_psz, Nat.max_comm, div_mul_div_of_le _ (Nat.le_max_left _ _)]

/-- The page frame of TLBMAP as an address. -/
theorem newTte_frame (s : State) (lo hi : Word) : (newTte s lo hi).ppn ++ 0#10 =
    BitVec.ofNat 32 ((hi.extractLsb' 0 22).toNat * 2 ^ 10 / 2 ^ pageShift (hi.extractLsb' 24 2) *
      2 ^ pageShift (hi.extractLsb' 24 2)) := by
  rw [← newTte_ppn s lo hi, ← Nat.shiftLeft_eq]
  apply BitVec.eq_of_toNat_eq
  have small := ((newTte s lo hi).ppn ++ 0#10).isLt
  rw [BitVec.toNat_append, BitVec.toNat_ofNat, Nat.zero_mod, Nat.or_zero] at small ⊢
  rw [BitVec.toNat_ofNat, Nat.mod_eq_of_lt small]

/-- `undefined_map` test by test (44 R531). -/
theorem undefinedMap_iff {s : State} {lo hi : Word} : undefinedMap s lo hi = true ↔
    (∃ e ∈ s.tlbA ++ s.tlbB, e.v = true ∧ (e.asi = asiOf s ∨ e.g = true ∨ hi.getLsbD 27 = true) ∧
      pagesMeet e (newTte s lo hi) = true) ∨
    (hi.extractLsb' 24 2 ≠ mmuSza s.mmuCon ∧ hi.extractLsb' 24 2 ≠ mmuSzb s.mmuCon) ∨
    attrOf s ((newTte s lo hi).ppn ++ 0#10) = .peripheral ∨ lo.getLsbD 31 = true ∨ hi.getLsbD 31 = false := by
  simp only [undefinedMap, hasP, Bool.or_eq_true, Bool.and_eq_true, List.any_eq_true, decide_eq_true_eq,
    Bool.not_eq_true', or_assoc, and_assoc]
  rfl

/-! ### TLBMAP: the slot of the new TTE -/

/-- The slot that TLBMAP enters its TTE into (44 R531, R539). -/
def mapSlot (s : State) (psz : BitVec 2) : Bool × Nat :=
  (mapTlb s psz, victimOf s (mapTlb s psz) (if mapTlb s psz then s.tlbB.length else s.tlbA.length))

/-- What TLBMAP leaves of the TTE in a slot that it does not take: it may make it invalid, unless the slot is kept (44 R539). -/
def leftInSlot (s : State) (p : Bool × Nat) (e : Tte) : Tte :=
  if (keptSlots s).contains p then e
  else { e with v := e.v && !(Config.freeWord s.freeCount (p.2 + if p.1 then 128 else 0)).getLsbD 1 }

theorem leftInSlot_kept {s : State} {p : Bool × Nat} (h : p ∈ keptSlots s) (e : Tte) : leftInSlot s p e = e := by
  simp [leftInSlot, h]

/-- It keeps the TTE or makes it invalid. -/
theorem leftInSlot_cases (s : State) (p : Bool × Nat) (e : Tte) :
    leftInSlot s p e = e ∨ leftInSlot s p e = { e with v := false } := by
  unfold leftInSlot
  split
  · exact .inl rfl
  · cases (Config.freeWord s.freeCount (p.2 + if p.1 then 128 else 0)).getLsbD 1
    · exact .inl (by simp)
    · exact .inr (by simp)

/-- A TTE that still translates an address was there before. -/
theorem leftInSlot_of_hits {s : State} {p : Bool × Nat} {e : Tte} {asi : BitVec 5} {va : Word}
    (h : (leftInSlot s p e).hits asi va = true) : leftInSlot s p e = e := by
  rcases leftInSlot_cases s p e with same | invalid
  · exact same
  · rw [invalid, hits_of_not_valid rfl] at h
    exact absurd h (by decide)

theorem dropSome_getElem? (s : State) (tlb : Bool) (l : List Tte) (k : Nat) :
    (dropSome s tlb l)[k]? = l[k]?.map (leftInSlot s (tlb, k)) := by
  rw [dropSome, List.getElem?_map]
  cases there : l[k]? with
  | none =>
    rw [List.getElem?_eq_none_iff] at there
    rw [List.getElem?_eq_none (by simpa using there)]
    rfl
  | some e =>
    obtain ⟨lt, -⟩ := List.getElem?_eq_some_iff.mp there
    have pair : (l.zip (List.range l.length))[k]? = some (e, k) :=
      List.getElem?_zip_eq_some.mpr ⟨there, List.getElem?_range lt⟩
    rw [pair]
    rfl

/-- At most three mappings are kept (21 R243). -/
theorem keptSlots_length_le (s : State) : (keptSlots s).length ≤ 3 := by
  have kept := List.length_filter_le (fun p => (slotTte s p).any (·.v))
    (s.recentMaps.take (max 1 (min 3 s.platform.tlbKeeps)))
  have taken := List.length_take_le (max 1 (min 3 s.platform.tlbKeeps)) s.recentMaps
  rw [keptSlots]
  omega

/-- The newest mapping is kept while it is there (44 R539). -/
theorem mem_keptSlots {s : State} {p : Bool × Nat} {e : Tte} (newest : s.recentMaps.head? = some p)
    (there : slotTte s p = some e) (valid : e.v = true) : p ∈ keptSlots s := by
  obtain ⟨rest, recent⟩ := List.head?_eq_some_iff.mp newest
  obtain ⟨n, some_kept⟩ : ∃ n, max 1 (min 3 s.platform.tlbKeeps) = n + 1 := ⟨_, (Nat.sub_add_cancel (by omega)).symm⟩
  refine List.mem_filter.mpr ⟨?_, by simp [there, valid]⟩
  rw [recent, some_kept, List.take_succ_cons]
  exact List.mem_cons_self

/-- In a TLB with more entries than mappings are kept there is a slot to take. -/
theorem victimSlots_ne_nil (s : State) (tlb : Bool) {size : Nat} (h : 3 < size) : victimSlots s tlb size ≠ [] := by
  intro none_free
  have all_kept : (List.range size).map (fun k => (tlb, k)) ⊆ keptSlots s := by
    intro p mem
    obtain ⟨k, in_range, rfl⟩ := List.mem_map.mp mem
    simpa using List.filter_eq_nil_iff.mp none_free k in_range
  have distinct : ((List.range size).map fun k => (tlb, k)).Nodup :=
    List.Pairwise.map _ (fun _ _ ne same => ne (Prod.mk.inj same).2) List.nodup_range
  have fewer := distinct.length_le_of_subset all_kept
  rw [List.length_map, List.length_range] at fewer
  exact absurd (Nat.le_trans fewer (keptSlots_length_le s)) (by omega)

/-- Where there is a slot to take, the victim is one. -/
theorem victimOf_mem {s : State} {tlb : Bool} {size : Nat} (h : victimSlots s tlb size ≠ []) :
    victimOf s tlb size ∈ victimSlots s tlb size := by
  have lt := Nat.mod_lt (Config.freeWord s.freeCount 301).toNat (List.length_pos_iff.mpr h)
  rw [victimOf, List.getD_eq_getElem?_getD, List.getElem?_eq_getElem lt, Option.getD_some]
  exact List.getElem_mem lt

/-- The victim is an entry of its TLB. -/
theorem victimOf_lt (s : State) (tlb : Bool) {size : Nat} (h : 0 < size) : victimOf s tlb size < size := by
  by_cases free : victimSlots s tlb size = []
  · simpa [victimOf, free] using h
  · exact List.mem_range.mp (List.mem_filter.mp (victimOf_mem free)).1

theorem mapSlot_lt {s : State} (h : s.Inv) (psz : BitVec 2) :
    (mapSlot s psz).2 < if (mapSlot s psz).1 then s.tlbB.length else s.tlbA.length := by
  refine victimOf_lt s _ ?_
  split
  · rw [h.tlbB]
    omega
  · rw [h.tlbA]
    omega

/-- In TLBs of four entries and more TLBMAP takes no kept slot (44 R539). -/
theorem mapSlot_not_kept {s : State} (h : s.Inv) (size : 3 ≤ s.platform.tlbTsz.toNat) (psz : BitVec 2) :
    mapSlot s psz ∉ keptSlots s := by
  have large : 3 < if mapTlb s psz then s.tlbB.length else s.tlbA.length := by
    split
    · rw [h.tlbB]
      omega
    · rw [h.tlbA]
      omega
  have free := (List.mem_filter.mp (victimOf_mem (victimSlots_ne_nil s (mapTlb s psz) large))).2
  simpa [mapSlot] using free

/-! ### TLBMAP: its effect slot by slot -/

theorem tlbmapEffect_asiOf (s : State) (lo hi : Word) : asiOf (tlbmapEffect s lo hi) = asiOf s := by
  unfold tlbmapEffect
  split <;> rfl

theorem tlbmapEffect_pc (s : State) (lo hi : Word) : (tlbmapEffect s lo hi).pc = s.pc := by
  unfold tlbmapEffect
  split <;> rfl

/-- TLBMAP changes the TLBs, the pc and the model's own choice of a slot alone. -/
theorem tlbmap_frame (len : Len) (s : State) (lo hi : Word) :
    { advance len (tlbmapEffect s lo hi) with
      tlbA := s.tlbA, tlbB := s.tlbB, recentMaps := s.recentMaps, freeCount := s.freeCount, pc := s.pc,
      completed := s.completed } = s := by
  unfold tlbmapEffect
  split <;> rfl

section defined

variable {s : State} {lo hi : Word} (defined : undefinedMap s lo hi = false)
include defined

/-- A defined TLBMAP drops some TTEs and sets one. -/
theorem tlbmapEffect_defined : tlbmapEffect s lo hi =
    let p := mapSlot s (hi.extractLsb' 24 2)
    { s with
      tlbA := if p.1 then dropSome s false s.tlbA else (dropSome s false s.tlbA).set p.2 (newTte s lo hi),
      tlbB := if p.1 then (dropSome s true s.tlbB).set p.2 (newTte s lo hi) else dropSome s true s.tlbB,
      recentMaps := p :: s.recentMaps.take 2, freeCount := s.freeCount + 1 } := by
  rw [tlbmapEffect, defined]
  rfl

theorem tlbmap_recentMaps : (tlbmapEffect s lo hi).recentMaps.head? = some (mapSlot s (hi.extractLsb' 24 2)) := by
  rw [tlbmapEffect_defined defined]
  rfl

theorem slotTte_tlbmap_other {q : Bool × Nat} (other : q ≠ mapSlot s (hi.extractLsb' 24 2)) :
    slotTte (tlbmapEffect s lo hi) q = (slotTte s q).map (leftInSlot s q) := by
  rw [tlbmapEffect_defined defined]
  obtain ⟨tlb, k⟩ := q
  generalize mapSlot s (hi.extractLsb' 24 2) = p at other
  obtain ⟨tlb', k'⟩ := p
  have index (same : tlb = tlb') : k' ≠ k := fun h => other (by rw [same, h])
  cases tlb <;> cases tlb' <;> simp [slotTte, dropSome_getElem?, List.getElem?_set_ne, index]

theorem slotTte_tlbmap_new (h : s.Inv) :
    slotTte (tlbmapEffect s lo hi) (mapSlot s (hi.extractLsb' 24 2)) = some (newTte s lo hi) := by
  have lt := mapSlot_lt h (hi.extractLsb' 24 2)
  rw [tlbmapEffect_defined defined]
  generalize mapSlot s (hi.extractLsb' 24 2) = p at lt
  obtain ⟨tlb, k⟩ := p
  cases tlb <;> exact List.getElem?_set_self (by simpa [dropSome_length] using lt)

/-- Another TTE that a defined TLBMAP leaves translates no address of the new page: it would have met that page. -/
theorem not_hits_of_tlbmap_other {q : Bool × Nat} {f : Tte} {va : Word} (other : q ≠ mapSlot s (hi.extractLsb' 24 2))
    (there : slotTte (tlbmapEffect s lo hi) q = some f)
    (page : va.toNat / 2 ^ pageShift (hi.extractLsb' 24 2) = lo.toNat / 2 ^ pageShift (hi.extractLsb' 24 2)) :
    f.hits (asiOf s) va = false := by
  rw [slotTte_tlbmap_other defined other, Option.map_eq_some_iff] at there
  obtain ⟨e, before, rfl⟩ := there
  cases hit : (leftInSlot s q e).hits (asiOf s) va with
  | false => rfl
  | true =>
    rw [leftInSlot_of_hits hit] at hit
    obtain ⟨valid, -, reached⟩ := hits_iff.mp hit
    have meets := pagesMeet_of_hits hit (newTte_hits_iff.mpr page)
    have undefined : undefinedMap s lo hi = true :=
      undefinedMap_iff.mpr (.inl ⟨e, mem_tlbs_iff.mpr ⟨q, before⟩, valid, reached.symm.imp_right .inl, meets⟩)
    exact absurd (defined.symm.trans undefined) (by decide)

/-- Every address of the page is translated by the new TTE (44 R531). -/
theorem lookupTte_tlbmap_page (h : s.Inv) {va : Word}
    (page : va.toNat / 2 ^ pageShift (hi.extractLsb' 24 2) = lo.toNat / 2 ^ pageShift (hi.extractLsb' 24 2)) :
    lookupTte (tlbmapEffect s lo hi) va = some (newTte s lo hi) := by
  refine lookupTte_of_only (slotTte_tlbmap_new defined h) ?_ fun q f other there => ?_
  · rw [tlbmapEffect_asiOf]
    exact newTte_hits_iff.mpr page
  · rw [tlbmapEffect_asiOf]
    exact not_hits_of_tlbmap_other defined other there page

/-- Outside the page no TTE translates that was not there before. -/
theorem lookupTte_tlbmap_outside (h : s.Inv) {va : Word} {e : Tte}
    (outside : va.toNat / 2 ^ pageShift (hi.extractLsb' 24 2) ≠ lo.toNat / 2 ^ pageShift (hi.extractLsb' 24 2))
    (found : lookupTte (tlbmapEffect s lo hi) va = some e) : e ∈ s.tlbA ++ s.tlbB := by
  obtain ⟨⟨q, there⟩, hit⟩ := lookupTte_some found
  rw [tlbmapEffect_asiOf] at hit
  by_cases new : q = mapSlot s (hi.extractLsb' 24 2)
  · rw [new, slotTte_tlbmap_new defined h, Option.some.injEq] at there
    rw [← there] at hit
    exact absurd (newTte_hits_iff.mp hit) outside
  · rw [slotTte_tlbmap_other defined new, Option.map_eq_some_iff] at there
    obtain ⟨f, before, rfl⟩ := there
    rw [leftInSlot_of_hits hit]
    exact mem_tlbs_iff.mpr ⟨q, before⟩

/-- Every other slot keeps its TTE or has it made invalid (44 R539, D2). -/
theorem slotTte_tlbmap_other_cases {q : Bool × Nat} (other : q ≠ mapSlot s (hi.extractLsb' 24 2)) :
    slotTte (tlbmapEffect s lo hi) q = slotTte s q ∨
      ∃ e, slotTte s q = some e ∧ slotTte (tlbmapEffect s lo hi) q = some { e with v := false } := by
  rw [slotTte_tlbmap_other defined other]
  cases slotTte s q with
  | none => exact .inl rfl
  | some e =>
    rcases leftInSlot_cases s q e with same | invalid
    · exact .inl (congrArg some same)
    · exact .inr ⟨e, rfl, congrArg some invalid⟩

/-- The mapping of the TLBMAP before stays where it is (44 R539, D2). -/
theorem slotTte_tlbmap_newest (h : s.Inv) (size : 3 ≤ s.platform.tlbTsz.toNat) {p : Bool × Nat} {e : Tte}
    (newest : s.recentMaps.head? = some p) (there : slotTte s p = some e) (valid : e.v = true) :
    slotTte (tlbmapEffect s lo hi) p = some e := by
  have kept := mem_keptSlots newest there valid
  have other : p ≠ mapSlot s (hi.extractLsb' 24 2) := fun same => mapSlot_not_kept h size _ (same ▸ kept)
  rw [slotTte_tlbmap_other defined other, there, Option.map_some, leftInSlot_kept kept]

end defined

/-- Settles O49: `undefined_map` by `undefinedMap_iff`; the effect by what it does to the slot of the new TTE and to every other
one. -/
theorem tlbMapInstalls : Obligations.TlbMapInstalls := by
  unfold Obligations.TlbMapInstalls
  intro len a s h even there supervisor lo hi psz bits
  rw [exec_tlbmap_even len a s even, finish_mmuPrologue_ok there supervisor]
  refine ⟨_, rfl, tlbmap_frame len s lo hi, congrArg (· + lenBytes len) (tlbmapEffect_pc s lo hi), ?_,
    fun defined => ⟨fun va page => ?_, fun va e outside absent found => absent (lookupTte_tlbmap_outside defined h outside found),
      ?_, fun p e size newest before valid => slotTte_tlbmap_newest defined h (BitVec.le_def.mp size) newest before valid⟩⟩
  · simp only [undefinedMap_iff, pagesMeet_newTte, newTte_frame]
    exact Iff.rfl
  · refine ⟨newTte s lo hi, lookupTte_tlbmap_page defined h page, rfl, rfl, rfl, rfl, rfl, ?_⟩
    rw [translate_toNat, newTte_ppn]
    exact congrArg (· * 2 ^ bits + va.toNat % 2 ^ bits) (Nat.mul_div_cancel _ (Nat.two_pow_pos _))
  · have entered := slotTte_tlbmap_new defined h
    refine ⟨mapSlot s psz, tlbmap_recentMaps defined, entered.trans (lookupTte_tlbmap_page defined h rfl).symm, ?_,
      fun q other => slotTte_tlbmap_other_cases defined other⟩
    rw [vpnOf_append]
    exact entered

end Sys2Proof.Machine
end

section
/-!
PROOFS. The floating-point format and the rounding of a result (45 R561, R564 to R566): the fields and the magnitude of a
word, how far `roundDiv` is from the exact quotient in each mode, and the word that `fpRound` gives.
-/
namespace Sys2Proof.Machine

/-! ### The fields of a word (R561) -/

theorem fpSign_eq (w : Word) : fpSign w = decide (2 ^ 31 ≤ w.toNat) := BitVec.msb_eq_decide w

theorem toNat_fpExp (w : Word) : (fpExp w).toNat = w.toNat / 2 ^ 23 % 2 ^ 8 := by
  rw [fpExp, BitVec.extractLsb'_toNat, Nat.shiftRight_eq_div_pow]

theorem toNat_fpFrac (w : Word) : (fpFrac w).toNat = w.toNat % 2 ^ 23 := by
  rw [fpFrac, BitVec.extractLsb'_toNat, Nat.shiftRight_zero]

theorem toNat_signed (neg : Bool) (m : BitVec 31) : (BitVec.ofBool neg ++ m).toNat = neg.toNat * 2 ^ 31 + m.toNat := by
  rw [BitVec.toNat_append, BitVec.toNat_ofBool, ← Nat.shiftLeft_add_eq_or_of_lt m.isLt, Nat.shiftLeft_eq]

@[simp] theorem fpSign_signed (neg : Bool) (m : BitVec 31) : fpSign (BitVec.ofBool neg ++ m) = neg := by
  have bound := m.isLt
  rw [fpSign_eq, toNat_signed]
  cases neg
  · simpa using bound
  · simp

theorem toNat_fpExp_signed (neg : Bool) (m : BitVec 31) : (fpExp (BitVec.ofBool neg ++ m)).toNat = m.toNat / 2 ^ 23 := by
  have bound := m.isLt
  rw [toNat_fpExp, toNat_signed]
  omega

theorem toNat_fpFrac_signed (neg : Bool) (m : BitVec 31) : (fpFrac (BitVec.ofBool neg ++ m)).toNat = m.toNat % 2 ^ 23 := by
  rw [toNat_fpFrac, toNat_signed]
  omega

/-- A word is its sign, its exponent and its fraction. -/
theorem signed_fields (w : Word) :
    BitVec.ofBool (fpSign w) ++ BitVec.ofNat 31 ((fpExp w).toNat * 2 ^ 23 + (fpFrac w).toNat) = w := by
  have bound := w.isLt
  apply BitVec.eq_of_toNat_eq
  rw [toNat_signed, BitVec.toNat_ofNat, fpSign_eq, toNat_fpExp, toNat_fpFrac]
  by_cases neg : 2 ^ 31 ≤ w.toNat
  · rw [decide_eq_true neg, Bool.toNat_true]
    omega
  · rw [decide_eq_false neg, Bool.toNat_false]
    omega

/-- The magnitude of a finite word in units of 2^-149. -/
def fpMag (w : Word) : Nat :=
  if fpExp w = 0 then (fpFrac w).toNat else (2 ^ 23 + (fpFrac w).toNat) * 2 ^ ((fpExp w).toNat - 1)

theorem fpVal_eq (w : Word) : fpVal w = if fpSign w then -(fpMag w : Int) else fpMag w := rfl

theorem natAbs_fpVal (w : Word) : (fpVal w).natAbs = fpMag w := by
  rw [fpVal_eq]
  split
  · rw [Int.natAbs_neg, Int.natAbs_natCast]
  · rw [Int.natAbs_natCast]

/-! ### Rounding to an integer (R564, R565) -/

/-- The mode rounds a magnitude of this sign away from zero. -/
def RoundsAway (rm : BitVec 2) (neg : Bool) : Prop := (rm = 1 ∧ neg = false) ∨ (rm = 2 ∧ neg = true)

/-- The mode rounds a magnitude of this sign toward zero. -/
def RoundsToward (rm : BitVec 2) (neg : Bool) : Prop := (rm = 1 ∧ neg = true) ∨ (rm = 2 ∧ neg = false) ∨ rm = 3

/-- Every mode rounds to nearest, or away from or toward zero for the sign, and only one of the three. -/
theorem rounding_cases (rm : BitVec 2) (neg : Bool) :
    (rm = 0 ∧ ¬ RoundsAway rm neg ∧ ¬ RoundsToward rm neg) ∨ (rm ≠ 0 ∧ RoundsAway rm neg ∧ ¬ RoundsToward rm neg) ∨
      (rm ≠ 0 ∧ ¬ RoundsAway rm neg ∧ RoundsToward rm neg) := by
  unfold RoundsAway RoundsToward
  revert rm neg
  decide

section roundDiv

variable {rm : BitVec 2} {neg : Bool} {num den k : Nat}

theorem roundDiv_nearest : roundDiv 0 neg num den =
    if den < 2 * (num % den) ∨ (2 * (num % den) = den ∧ num / den % 2 = 1) then num / den + 1 else num / den := by
  simp [roundDiv]

theorem roundDiv_away (away : RoundsAway rm neg) :
    roundDiv rm neg num den = if num % den = 0 then num / den else num / den + 1 := by
  rcases away with ⟨rfl, rfl⟩ | ⟨rfl, rfl⟩
  · simp [roundDiv]
  · simp [roundDiv]

theorem roundDiv_toward (toward : RoundsToward rm neg) : roundDiv rm neg num den = num / den := by
  rcases toward with ⟨rfl, rfl⟩ | ⟨rfl, rfl⟩ | rfl
  · simp [roundDiv]
  · simp [roundDiv]
  · simp [roundDiv]

/-- What rounding in one of the modes comes to: the nearest integer, the next one above, or the next one below. -/
structure Rounded (rm : BitVec 2) (neg : Bool) (num den n : Nat) : Prop where
  below : num < n * den + den
  above : n * den < num + den
  exact : n * den = num ↔ num % den = 0
  nearest : rm = 0 → 2 * num ≤ 2 * (n * den) + den ∧ 2 * (n * den) ≤ 2 * num + den ∧
    (2 * num = 2 * (n * den) + den ∨ 2 * (n * den) = 2 * num + den → n % 2 = 0)
  away : RoundsAway rm neg → num ≤ n * den
  toward : RoundsToward rm neg → n * den ≤ num

theorem roundDiv_rounded (positive : 0 < den) : Rounded rm neg num den (roundDiv rm neg num den) := by
  have small := Nat.mod_lt num positive
  have whole := Nat.div_add_mod' num den
  have next : (num / den + 1) * den = num / den * den + den := Nat.succ_mul ..
  rcases rounding_cases rm neg with ⟨rfl, notAway, notToward⟩ | ⟨other, away, notToward⟩ | ⟨other, notAway, toward⟩
  · rw [roundDiv_nearest]
    split
    next half => exact ⟨by omega, by omega, by omega, fun _ => by omega, (absurd · notAway), (absurd · notToward)⟩
    next less => exact ⟨by omega, by omega, by omega, fun _ => by omega, (absurd · notAway), (absurd · notToward)⟩
  · rw [roundDiv_away away]
    split
    next even => exact ⟨by omega, by omega, by omega, (absurd · other), fun _ => by omega, (absurd · notToward)⟩
    next between => exact ⟨by omega, by omega, by omega, (absurd · other), fun _ => by omega, (absurd · notToward)⟩
  · rw [roundDiv_toward toward]
    exact ⟨by omega, by omega, by omega, (absurd · other), (absurd · notAway), fun _ => by omega⟩

end roundDiv


/-- A rounded value exceeds an odd integer from the middle to the next one on, in the directed modes from that integer or from
the next one on. -/
theorem Rounded.lt_iff_of_odd {rm : BitVec 2} {neg : Bool} {num den n k : Nat} (r : Rounded rm neg num den n)
    (positive : 0 < den) (odd : k % 2 = 1) :
    k < n ↔ (rm = 0 ∧ (2 * k + 1) * den ≤ 2 * num) ∨ (RoundsAway rm neg ∧ k * den < num) ∨
      (RoundsToward rm neg ∧ (k + 1) * den ≤ num) := by
  have below := r.below
  have above := r.above
  have reached (h : k + 1 ≤ n) : k * den + den ≤ n * den := Nat.succ_mul k den ▸ Nat.mul_le_mul_right den h
  have missed (h : n ≤ k) : n * den ≤ k * den := Nat.mul_le_mul_right den h
  have middle : (2 * k + 1) * den = 2 * (k * den) + den := by rw [Nat.succ_mul, Nat.mul_assoc]
  have next : (k + 1) * den = k * den + den := Nat.succ_mul ..
  rcases rounding_cases rm neg with ⟨rfl, notAway, notToward⟩ | ⟨other, away, notToward⟩ | ⟨other, notAway, toward⟩
  · obtain ⟨least, most, tie⟩ := r.nearest rfl
    simp only [notAway, notToward, false_and, or_false, true_and, middle]
    refine ⟨fun h => by have := reached h; omega, fun h => Nat.lt_of_not_le fun small => ?_⟩
    have same : n * den = k * den := by have := missed small; omega
    have : n = k := Nat.eq_of_mul_eq_mul_right positive same
    have := tie (.inl (by omega))
    omega
  · have up := r.away away
    simp only [other, away, notToward, false_and, false_or, or_false, true_and]
    exact ⟨fun h => by have := reached h; omega, fun h => Nat.lt_of_not_le fun most => by have := missed most; omega⟩
  · have down := r.toward toward
    simp only [other, notAway, toward, false_and, false_or, true_and, next]
    exact ⟨fun h => by have := reached h; omega, fun h => Nat.lt_of_not_le fun most => by have := missed most; omega⟩

/-! ### The word of a magnitude (R566) -/

/-- The exponent of the last place of `num / den`, a value of at least 2^-126 (R566). -/
def lastPlace (num den : Nat) : Nat := (num / den).log2 - 23

/-- The number of last places in `num / den`, rounded. -/
def fpDigits (rm : BitVec 2) (neg : Bool) (num den : Nat) : Nat := roundDiv rm neg num (den * 2 ^ lastPlace num den)

/-- The lower 31 bits of the rounded value: a carry out of the fraction goes on into the exponent. -/
def fpPacked (rm : BitVec 2) (neg : Bool) (num den : Nat) : Nat :=
  lastPlace num den * 2 ^ 23 + fpDigits rm neg num den

section fpRound

variable {rm : BitVec 2} {neg : Bool} {num den : Nat}

theorem fpRound_underflow (small : num < den * 2 ^ 23) : fpRound rm neg num den =
    { bits := if roundDiv rm neg num den = 2 ^ 23 then fpMin neg else fpZero neg,
      flags := { FpFlags.none with fu := true, fx := true } } := if_pos small

theorem fpRound_overflow (large : ¬ num < den * 2 ^ 23) (exceeds : 0x7F800000 ≤ fpPacked rm neg num den) :
    fpRound rm neg num den =
      { bits := if rm = 0 then fpInf neg else if rm = 3 then fpMax neg
                else if rm = 2 then (if neg then fpInf true else fpMax false)
                else (if neg then fpMax true else fpInf false),
        flags := { FpFlags.none with fv := true, fx := true } } := (if_neg large).trans (if_pos exceeds)

theorem fpRound_normal (large : ¬ num < den * 2 ^ 23) (fits : ¬ 0x7F800000 ≤ fpPacked rm neg num den) :
    fpRound rm neg num den =
      { bits := BitVec.ofBool neg ++ BitVec.ofNat 31 (fpPacked rm neg num den),
        flags := { FpFlags.none with fx := num % (den * 2 ^ lastPlace num den) ≠ 0 } } :=
  (if_neg large).trans (if_neg fits)

/-- FU is set below 2^-126 alone. -/
theorem fpRound_fu : (fpRound rm neg num den).flags.fu = true ↔ num < den * 2 ^ 23 := by
  by_cases small : num < den * 2 ^ 23
  · rw [fpRound_underflow small]
    exact iff_of_true rfl small
  · by_cases exceeds : 0x7F800000 ≤ fpPacked rm neg num den
    · rw [fpRound_overflow small exceeds]
      exact iff_of_false Bool.false_ne_true small
    · rw [fpRound_normal small exceeds]
      exact iff_of_false Bool.false_ne_true small

/-- FV is set where the packed exponent reaches that of the infinities. -/
theorem fpRound_fv :
    (fpRound rm neg num den).flags.fv = true ↔ ¬ num < den * 2 ^ 23 ∧ 0x7F800000 ≤ fpPacked rm neg num den := by
  by_cases small : num < den * 2 ^ 23
  · rw [fpRound_underflow small]
    exact iff_of_false Bool.false_ne_true fun ⟨large, _⟩ => large small
  · by_cases exceeds : 0x7F800000 ≤ fpPacked rm neg num den
    · rw [fpRound_overflow small exceeds]
      exact iff_of_true rfl ⟨small, exceeds⟩
    · rw [fpRound_normal small exceeds]
      exact iff_of_false Bool.false_ne_true fun ⟨_, high⟩ => exceeds high

/-- A value of at least 2^-126 has 24 binary places before its last one. -/
theorem lastPlace_bounds (positive : 0 < den) (large : ¬ num < den * 2 ^ 23) :
    2 ^ 23 * (den * 2 ^ lastPlace num den) ≤ num ∧ num < 2 ^ 24 * (den * 2 ^ lastPlace num den) := by
  have quotient : 2 ^ 23 ≤ num / den := (Nat.le_div_iff_mul_le positive).mpr (by omega)
  have nonzero : num / den ≠ 0 := by omega
  have digits : 23 ≤ (num / den).log2 := (Nat.le_log2 nonzero).mpr quotient
  have low : 2 ^ (23 + lastPlace num den) ≤ num / den := (Nat.le_log2 nonzero).mp (by unfold lastPlace; omega)
  have high : num / den < 2 ^ (24 + lastPlace num den) := (Nat.log2_lt nonzero).mp (by unfold lastPlace; omega)
  rw [Nat.pow_add] at low high
  constructor
  · calc
      2 ^ 23 * (den * 2 ^ lastPlace num den) = 2 ^ 23 * 2 ^ lastPlace num den * den := by rw [Nat.mul_assoc, Nat.mul_comm den]
      _ ≤ num := (Nat.le_div_iff_mul_le positive).mp low
  · calc num < 2 ^ 24 * 2 ^ lastPlace num den * den := (Nat.div_lt_iff_lt_mul positive).mp high
      _ = 2 ^ 24 * (den * 2 ^ lastPlace num den) := by rw [Nat.mul_assoc, Nat.mul_comm den]

theorem fpDigits_rounded (positive : 0 < den) :
    Rounded rm neg num (den * 2 ^ lastPlace num den) (fpDigits rm neg num den) :=
  roundDiv_rounded (Nat.mul_pos positive (Nat.two_pow_pos _))

theorem fpDigits_bounds (positive : 0 < den) (large : ¬ num < den * 2 ^ 23) :
    2 ^ 23 ≤ fpDigits rm neg num den ∧ fpDigits rm neg num den ≤ 2 ^ 24 := by
  obtain ⟨low, high⟩ := lastPlace_bounds positive large
  have rounded := fpDigits_rounded (rm := rm) (neg := neg) (num := num) positive
  have below := rounded.below
  have above := rounded.above
  constructor
  · refine Nat.le_of_lt_succ (Nat.lt_of_mul_lt_mul_right (a := den * 2 ^ lastPlace num den) ?_)
    have carry : (fpDigits rm neg num den).succ * (den * 2 ^ lastPlace num den) = _ := Nat.succ_mul ..
    omega
  · refine Nat.le_of_lt_succ (Nat.lt_of_mul_lt_mul_right (a := den * 2 ^ lastPlace num den) ?_)
    omega

end fpRound

/-- The word of `y` units of the place `e`: its magnitude and its last place, 2^24 units being one more exponent. -/
theorem packed_fields {neg : Bool} {e y : Nat} (low : 2 ^ 23 ≤ y) (high : y ≤ 2 ^ 24)
    (fits : e * 2 ^ 23 + y < 0x7F800000) :
    let w : Word := BitVec.ofBool neg ++ BitVec.ofNat 31 (e * 2 ^ 23 + y)
    fpMag w = y * 2 ^ e ∧ (w.getLsbD 0 = false ↔ y % 2 = 0) ∧
      ((fpExp w).toNat = e + 1 ∨ (y = 2 ^ 24 ∧ (fpExp w).toNat = e + 2)) := by
  intro w
  have packed : (BitVec.ofNat 31 (e * 2 ^ 23 + y)).toNat = e * 2 ^ 23 + y := by
    rw [BitVec.toNat_ofNat]
    exact Nat.mod_eq_of_lt (by omega)
  have exponent : (fpExp w).toNat = (e * 2 ^ 23 + y) / 2 ^ 23 := by rw [toNat_fpExp_signed, packed]
  have fraction : (fpFrac w).toNat = (e * 2 ^ 23 + y) % 2 ^ 23 := by rw [toNat_fpFrac_signed, packed]
  have parity : w.getLsbD 0 = false ↔ y % 2 = 0 := by
    have : w.toNat = _ := toNat_signed ..
    rw [BitVec.getLsbD, this, packed, Nat.testBit_zero, decide_eq_false_iff_not]
    omega
  have nonzero : fpExp w ≠ 0 := fun zero => by
    rw [zero] at exponent
    have : (0 : BitVec 8).toNat = 0 := rfl
    omega
  rw [fpMag, if_neg nonzero, exponent, fraction]
  refine ⟨?_, parity, by omega⟩
  rcases Nat.lt_or_eq_of_le high with small | rfl
  · rw [show (e * 2 ^ 23 + y) / 2 ^ 23 - 1 = e by omega, show 2 ^ 23 + (e * 2 ^ 23 + y) % 2 ^ 23 = y by omega]
  · rw [show (e * 2 ^ 23 + 2 ^ 24) / 2 ^ 23 - 1 = e + 1 by omega,
      show 2 ^ 23 + (e * 2 ^ 23 + 2 ^ 24) % 2 ^ 23 = 2 ^ 23 by omega]
    omega

section fpRound

variable {rm : BitVec 2} {neg : Bool} {num den : Nat}

/-- FV is set exactly where the value rounded with an unbounded exponent reaches 2^128, 277 places above 2^-149. -/
theorem fpRound_fv_iff (positive : 0 < den) : (fpRound rm neg num den).flags.fv = true ↔
    (rm = 0 ∧ (2 ^ 25 - 1) * 2 ^ 252 * den ≤ num) ∨ (RoundsAway rm neg ∧ (2 ^ 24 - 1) * 2 ^ 253 * den < num) ∨
      (RoundsToward rm neg ∧ 2 ^ 277 * den ≤ num) := by
  rw [fpRound_fv]
  by_cases small : num < den * 2 ^ 23
  · exact iff_of_false (fun ⟨large, _⟩ => large small) (by omega)
  obtain ⟨low, high⟩ := lastPlace_bounds positive small
  obtain ⟨least, most⟩ := fpDigits_bounds (rm := rm) (neg := neg) positive small
  have turn := (fpDigits_rounded (rm := rm) (neg := neg) (num := num) positive).lt_iff_of_odd (k := 2 ^ 24 - 1)
    (Nat.mul_pos positive (Nat.two_pow_pos _)) rfl
  rw [fpPacked]
  rcases Nat.lt_trichotomy (lastPlace num den) 253 with below | last | above
  · have grid : den * 2 ^ lastPlace num den ≤ den * 2 ^ 252 :=
      Nat.mul_le_mul_left den (Nat.pow_le_pow_right (by decide) (by omega))
    exact iff_of_false (by omega) (by omega)
  · rw [last] at turn ⊢
    have carry : 0x7F800000 ≤ 253 * 2 ^ 23 + fpDigits rm neg num den ↔ 2 ^ 24 - 1 < fpDigits rm neg num den := by omega
    rw [and_iff_right small, carry, turn]
    refine or_congr (and_congr_right fun _ => by omega) (or_congr (and_congr_right fun _ => by omega)
      (and_congr_right fun _ => by omega))
  · have grid : den * 2 ^ 254 ≤ den * 2 ^ lastPlace num den :=
      Nat.mul_le_mul_left den (Nat.pow_le_pow_right (by decide) (by omega))
    refine iff_of_true ⟨small, by omega⟩ ?_
    rcases rounding_cases rm neg with ⟨nearest, -, -⟩ | ⟨-, away, -⟩ | ⟨-, -, toward⟩
    · exact .inl ⟨nearest, by omega⟩
    · exact .inr (.inl ⟨away, by omega⟩)
    · exact .inr (.inr ⟨toward, by omega⟩)

/-- An overflow sets FX too, and gives infinity where the mode rounds up or to nearest, MAXF where it rounds down. -/
theorem fpRound_of_fv (overflow : (fpRound rm neg num den).flags.fv = true) :
    (fpRound rm neg num den).flags = { fi := false, fv := true, fz := false, fu := false, fx := true } ∧
      (rm = 0 ∨ RoundsAway rm neg → (fpRound rm neg num den).bits = fpInf neg) ∧
      (RoundsToward rm neg → (fpRound rm neg num den).bits = fpMax neg) := by
  obtain ⟨large, exceeds⟩ := fpRound_fv.mp overflow
  rw [fpRound_overflow large exceeds]
  refine ⟨rfl, ?_, ?_⟩
  · rintro (rfl | ⟨rfl, rfl⟩ | ⟨rfl, rfl⟩) <;> rfl
  · rintro (⟨rfl, rfl⟩ | ⟨rfl, rfl⟩ | rfl) <;> rfl

/-- An underflow sets FX too, and gives MINN where the denormal grid rounds up to it, else zero. -/
theorem fpRound_of_fu (positive : 0 < den) (underflow : (fpRound rm neg num den).flags.fu = true) :
    (fpRound rm neg num den).flags = { fi := false, fv := false, fz := false, fu := true, fx := true } ∧
      let up := (rm = 0 ∧ (2 ^ 24 - 1) * den ≤ 2 * num) ∨ (RoundsAway rm neg ∧ (2 ^ 23 - 1) * den < num)
      (up → (fpRound rm neg num den).bits = fpMin neg) ∧ (¬ up → (fpRound rm neg num den).bits = fpZero neg) := by
  have small := fpRound_fu.mp underflow
  have rounded : Rounded rm neg num den (roundDiv rm neg num den) := roundDiv_rounded positive
  have most : roundDiv rm neg num den ≤ 2 ^ 23 := by
    have above := rounded.above
    refine Nat.le_of_lt_succ (Nat.lt_of_mul_lt_mul_right (a := den) ?_)
    omega
  have turn := rounded.lt_iff_of_odd (k := 2 ^ 23 - 1) positive rfl
  have minn : roundDiv rm neg num den = 2 ^ 23 ↔
      (rm = 0 ∧ (2 ^ 24 - 1) * den ≤ 2 * num) ∨ (RoundsAway rm neg ∧ (2 ^ 23 - 1) * den < num) := by
    have reached : roundDiv rm neg num den = 2 ^ 23 ↔ 2 ^ 23 - 1 < roundDiv rm neg num den := by omega
    have never : ¬ (2 ^ 23 - 1 + 1) * den ≤ num := by omega
    exact reached.trans (turn.trans (or_congr Iff.rfl (or_iff_left fun ⟨_, next⟩ => never next)))
  rw [fpRound_underflow small]
  exact ⟨rfl, fun up => if_pos (minn.mpr up), fun down => if_neg (mt minn.mp down)⟩

/-- A result that neither overflows nor underflows is the exact value rounded to a multiple of its last place. -/
theorem fpRound_of_normal (positive : 0 < den) (noOverflow : (fpRound rm neg num den).flags.fv = false)
    (noUnderflow : (fpRound rm neg num den).flags.fu = false) :
    ∃ place y, Rounded rm neg num place y ∧ 0 < place ∧ fpMag (fpRound rm neg num den).bits * den = y * place ∧
      (2 ^ ((fpExp (fpRound rm neg num den).bits).toNat - 1) * den = place ∨
        (y = 2 ^ 24 ∧ 2 ^ ((fpExp (fpRound rm neg num den).bits).toNat - 1) * den = 2 * place)) ∧
      ((fpRound rm neg num den).bits.getLsbD 0 = false ↔ y % 2 = 0) ∧ fpSign (fpRound rm neg num den).bits = neg ∧
      (fpRound rm neg num den).flags = { FpFlags.none with fx := num % place ≠ 0 } := by
  have large : ¬ num < den * 2 ^ 23 := fun small => by simp [fpRound_fu.mpr small] at noUnderflow
  have fits : ¬ 0x7F800000 ≤ fpPacked rm neg num den := fun exceeds => by
    simp [fpRound_fv.mpr ⟨large, exceeds⟩] at noOverflow
  obtain ⟨least, most⟩ := fpDigits_bounds (rm := rm) (neg := neg) positive large
  obtain ⟨magnitude, parity, exponent⟩ := packed_fields (neg := neg) least most (Nat.lt_of_not_le fits)
  rw [fpRound_normal large fits]
  refine ⟨den * 2 ^ lastPlace num den, fpDigits rm neg num den, fpDigits_rounded positive,
    Nat.mul_pos positive (Nat.two_pow_pos _), ?_, ?_, parity, fpSign_signed .., rfl⟩
  · exact (congrArg (· * den) magnitude).trans (by rw [Nat.mul_assoc, Nat.mul_comm den])
  · rcases exponent with same | ⟨full, next⟩
    · left
      rw [fpPacked, same, Nat.add_sub_cancel, Nat.mul_comm]
    · right
      rw [fpPacked, next]
      exact ⟨full, by rw [Nat.add_succ_sub_one, Nat.pow_succ, Nat.mul_comm _ 2, Nat.mul_assoc, Nat.mul_comm den]⟩

/-- A multiple of 2^e of 24 binary digits has its last place at e and is rounded to itself. -/
theorem lastPlace_of_grid {e y : Nat} (least : 2 ^ 23 ≤ y) (most : y < 2 ^ 24) : lastPlace (y * 2 ^ e) 1 = e := by
  have positive : y * 2 ^ e ≠ 0 := Nat.mul_ne_zero (by omega) (Nat.ne_of_gt (Nat.two_pow_pos e))
  have log : (y * 2 ^ e).log2 = 23 + e := by
    rw [Nat.log2_eq_iff positive, Nat.add_right_comm, Nat.pow_add, Nat.pow_add]
    exact ⟨Nat.mul_le_mul_right _ least, Nat.mul_lt_mul_of_pos_right most (Nat.two_pow_pos e)⟩
  rw [lastPlace, Nat.div_one, log, Nat.add_sub_cancel_left]

theorem fpDigits_of_grid {e y : Nat} (least : 2 ^ 23 ≤ y) (most : y < 2 ^ 24) : fpDigits rm neg (y * 2 ^ e) 1 = y := by
  have rounded := fpDigits_rounded (rm := rm) (neg := neg) (num := y * 2 ^ e) Nat.one_pos
  rw [lastPlace_of_grid least most, Nat.one_mul] at rounded
  exact Nat.eq_of_mul_eq_mul_right (Nat.two_pow_pos e) (rounded.exact.mpr (Nat.mul_mod_left ..))

/-- A normal number is its own rounded value (R566). -/
theorem fpRound_of_word (rm : BitVec 2) {w : Word} (least : 1 ≤ (fpExp w).toNat) (most : (fpExp w).toNat ≤ 254) :
    fpRound rm (fpSign w) (fpVal w).natAbs 1 = fpExact w := by
  have fraction := (fpFrac w).isLt
  have nonzero : fpExp w ≠ 0 := fun zero => by simp [zero] at least
  have low : 2 ^ 23 ≤ 2 ^ 23 + (fpFrac w).toNat := by omega
  have high : 2 ^ 23 + (fpFrac w).toNat < 2 ^ 24 := by omega
  rw [natAbs_fpVal, fpMag, if_neg nonzero]
  have packed : fpPacked rm (fpSign w) ((2 ^ 23 + (fpFrac w).toNat) * 2 ^ ((fpExp w).toNat - 1)) 1 =
      (fpExp w).toNat * 2 ^ 23 + (fpFrac w).toNat := by
    rw [fpPacked, lastPlace_of_grid low high, fpDigits_of_grid low high]
    omega
  have large : ¬ (2 ^ 23 + (fpFrac w).toNat) * 2 ^ ((fpExp w).toNat - 1) < 1 * 2 ^ 23 := by
    have := Nat.le_mul_of_pos_right (2 ^ 23 + (fpFrac w).toNat) (Nat.two_pow_pos ((fpExp w).toNat - 1))
    omega
  rw [fpRound_normal large (by omega), packed, signed_fields, lastPlace_of_grid low high, Nat.one_mul, Nat.mul_mod_left]
  rfl

end fpRound

/-- Settles O56: the bounds of `Rounded` for the last place of the value, which is half that of the word when the rounding
carries. -/
theorem roundingIsCorrect : Obligations.RoundingIsCorrect := by
  unfold Obligations.RoundingIsCorrect
  refine ⟨fun rm w => fpRound_of_word rm, fun rm neg num den _ positive => ⟨fun noOverflow noUnderflow => ?_,
    fpRound_fv_iff positive, fpRound_of_fv, by rw [fpRound_fu, Nat.mul_comm], fpRound_of_fu positive⟩⟩
  obtain ⟨place, y, rounded, spaced, magnitude, ulp, parity, sign, flags⟩ :=
    fpRound_of_normal positive noOverflow noUnderflow
  have below := rounded.below
  have above := rounded.above
  rw [natAbs_fpVal, magnitude]
  refine ⟨sign, by omega, by omega, ?_, by rw [flags]; rfl, by rw [flags]; rfl, fun nearest => ?_, rounded.away,
    rounded.toward⟩
  · rw [flags]
    exact decide_eq_true_iff.trans (not_congr rounded.exact.symm)
  · obtain ⟨least, most, tie⟩ := rounded.nearest nearest
    rw [parity]
    rcases ulp with same | ⟨rfl, double⟩
    · rw [same]
      exact ⟨least, most, tie⟩
    · rw [double]
      omega

end Sys2Proof.Machine
end

section
/-!
PROOFS. The operands of the floating-point instructions (45 R561 to R563): what replacing a denormal with zero and inverting a
sign do to the class and the value of a word, and the NaN that a NaN operand gives.
-/
namespace Sys2Proof.Machine

/-! ### Denormal operands and inverted signs (R562) -/

/-- The sign bit alone is the zero of its sign. -/
theorem and_signBit (w : Word) : w &&& 0x80000000 = fpZero (fpSign w) := by
  apply BitVec.eq_of_getLsbD_eq
  intro i bound
  have mask : (0x80000000 : Word).getLsbD i = decide (i = 31) := by revert i; decide
  rw [BitVec.getLsbD_and, mask, fpZero, BitVec.getLsbD_append, BitVec.getLsbD_ofBool]
  by_cases sign : i = 31
  · subst sign
    simp [fpSign]
  · simp [sign, show i < 31 by omega]

/-- A zero or denormal operand stands for the zero of its sign. -/
theorem fpDz_cases (w : Word) : (fpExp w = 0 ∧ fpDz w = fpZero (fpSign w)) ∨ (fpExp w ≠ 0 ∧ fpDz w = w) := by
  rw [fpDz, fpIsDenormal, and_signBit]
  by_cases zero : fpExp w = 0
  · refine .inl ⟨zero, ?_⟩
    split
    · rfl
    next isZero =>
      have none : fpFrac w = 0 := by simpa [zero] using isZero
      conv => lhs; rw [← signed_fields w, zero, none]
      rfl
  · exact .inr ⟨zero, if_neg (by rw [decide_eq_false zero, Bool.false_and]; exact Bool.false_ne_true)⟩

@[simp] theorem fpSign_fpZero (neg : Bool) : fpSign (fpZero neg) = neg := fpSign_signed ..
@[simp] theorem fpExp_fpZero (neg : Bool) : fpExp (fpZero neg) = 0 := by cases neg <;> rfl
@[simp] theorem fpFrac_fpZero (neg : Bool) : fpFrac (fpZero neg) = 0 := by cases neg <;> rfl

section fpDz

variable (w : Word)

@[simp] theorem fpSign_fpDz : fpSign (fpDz w) = fpSign w := by
  rcases fpDz_cases w with ⟨-, dz⟩ | ⟨-, dz⟩
  · rw [dz, fpSign_fpZero]
  · rw [dz]

@[simp] theorem fpExp_fpDz : fpExp (fpDz w) = fpExp w := by
  rcases fpDz_cases w with ⟨zero, dz⟩ | ⟨-, dz⟩
  · rw [dz, fpExp_fpZero, zero]
  · rw [dz]

@[simp] theorem fpIsNan_fpDz : fpIsNan (fpDz w) = fpIsNan w := by
  rcases fpDz_cases w with ⟨zero, dz⟩ | ⟨-, dz⟩
  · simp [fpIsNan, dz, zero]
  · rw [dz]

@[simp] theorem fpIsSnan_fpDz : fpIsSnan (fpDz w) = fpIsSnan w := by
  rcases fpDz_cases w with ⟨zero, dz⟩ | ⟨-, dz⟩
  · simp [fpIsSnan, fpIsNan, dz, zero]
  · rw [dz]

@[simp] theorem fpIsInf_fpDz : fpIsInf (fpDz w) = fpIsInf w := by
  rcases fpDz_cases w with ⟨zero, dz⟩ | ⟨-, dz⟩
  · simp [fpIsInf, dz, zero]
  · rw [dz]

@[simp] theorem fpIsZero_fpDz : fpIsZero (fpDz w) = decide (fpExp w = 0) := by
  rcases fpDz_cases w with ⟨zero, dz⟩ | ⟨nonzero, dz⟩
  · simp [fpIsZero, dz, zero]
  · rw [dz, fpIsZero, decide_eq_false nonzero, Bool.false_and]

@[simp] theorem fpVal_fpDz : fpVal (fpDz w) = fpOperand w := by
  rcases fpDz_cases w with ⟨zero, dz⟩ | ⟨nonzero, dz⟩
  · simp [fpVal, fpOperand, dz, zero]
  · rw [dz, fpOperand, if_neg nonzero]

@[simp] theorem fpSign_fpNeg : fpSign (fpNeg w) = !fpSign w := by simp [fpSign, fpNeg]

theorem getLsbD_fpNeg {i : Nat} (low : i < 31) : (fpNeg w).getLsbD i = w.getLsbD i := by
  have mask : (0x80000000 : Word).getLsbD i = false := by revert i; decide
  rw [fpNeg, BitVec.getLsbD_xor, mask, Bool.xor_false]

@[simp] theorem fpExp_fpNeg : fpExp (fpNeg w) = fpExp w := by
  apply BitVec.eq_of_getLsbD_eq
  intro i bound
  rw [fpExp, fpExp, BitVec.getLsbD_extractLsb', BitVec.getLsbD_extractLsb', getLsbD_fpNeg w (by omega)]

@[simp] theorem fpFrac_fpNeg : fpFrac (fpNeg w) = fpFrac w := by
  apply BitVec.eq_of_getLsbD_eq
  intro i bound
  rw [fpFrac, fpFrac, BitVec.getLsbD_extractLsb', BitVec.getLsbD_extractLsb', getLsbD_fpNeg w (by omega)]

@[simp] theorem fpIsNan_fpNeg : fpIsNan (fpNeg w) = fpIsNan w := by rw [fpIsNan, fpExp_fpNeg, fpFrac_fpNeg, fpIsNan]
@[simp] theorem fpIsInf_fpNeg : fpIsInf (fpNeg w) = fpIsInf w := by rw [fpIsInf, fpExp_fpNeg, fpFrac_fpNeg, fpIsInf]
@[simp] theorem fpIsSnan_fpNeg : fpIsSnan (fpNeg w) = fpIsSnan w := by
  rw [fpIsSnan, fpIsNan_fpNeg, getLsbD_fpNeg w (by decide), fpIsSnan]

@[simp] theorem fpOperand_fpNeg : fpOperand (fpNeg w) = -fpOperand w := by
  have magnitude : fpMag (fpNeg w) = fpMag w := by rw [fpMag, fpExp_fpNeg, fpFrac_fpNeg, fpMag]
  rw [fpOperand, fpOperand, fpExp_fpNeg, fpVal_eq, fpVal_eq, magnitude, fpSign_fpNeg]
  split
  · rfl
  · cases fpSign w
    · rfl
    · exact (Int.neg_neg _).symm

end fpDz

/-! ### NaN operands (R563) -/

/-- Without a NaN operand the check passes. -/
theorem nanCheck_of_numbers {ops : List Word} (r : FpResult) (numbers : ops.any fpIsNan = false) : nanCheck ops r = r := by
  rw [nanCheck, numbers]
  exact if_neg Bool.false_ne_true

theorem nanCheck_of_nan {ops : List Word} (r : FpResult) (nan : ops.any fpIsNan = true) : nanCheck ops r =
    { bits := 0x7FC00000, flags := { fi := ops.any fpIsSnan, fv := false, fz := false, fu := false, fx := false } } := by
  rw [nanCheck, nan]
  rfl

/-- A denormal operand is no NaN, so the check sees the operands as they are. -/
theorem nanCheck_map_fpDz (ops : List Word) (r : FpResult) : nanCheck (ops.map fpDz) r = nanCheck ops r := by
  have nan : fpIsNan ∘ fpDz = fpIsNan := funext fpIsNan_fpDz
  have signalling : fpIsSnan ∘ fpDz = fpIsSnan := funext fpIsSnan_fpDz
  rw [nanCheck, nanCheck, List.any_map, List.any_map, nan, signalling]

/-- An inverted sign leaves a NaN of its kind. -/
theorem any_fpNeg (d a : Word) :
    [d, fpNeg a].any fpIsNan = [d, a].any fpIsNan ∧ [d, fpNeg a].any fpIsSnan = [d, a].any fpIsSnan := by
  simp

/-- Settles O54: every arithmetic instruction is `nanCheck` of its operands before anything else. -/
theorem nansGiveTheQuietNan : Obligations.NansGiveTheQuietNan := by
  unfold Obligations.NansGiveTheQuietNan
  intro rm sub d a b quiet
  refine ⟨fun nan => ?_, fun nan => ?_, fun nan => ?_, fun nan => ?_, fun nan => ?_, fun nan => ?_⟩
  · exact (nanCheck_map_fpDz [d, a] _).trans (nanCheck_of_nan _ nan)
  · obtain ⟨sameNan, sameSignalling⟩ := any_fpNeg d a
    rw [← sameSignalling]
    exact (nanCheck_map_fpDz [d, fpNeg a] _).trans (nanCheck_of_nan _ (sameNan.trans nan))
  · exact (nanCheck_map_fpDz [a, b] _).trans (nanCheck_of_nan _ nan)
  · exact (nanCheck_map_fpDz [a, b] _).trans (nanCheck_of_nan _ nan)
  · exact (nanCheck_map_fpDz [d, a, b] _).trans (nanCheck_of_nan _ nan)
  · exact (nanCheck_map_fpDz [a] _).trans (nanCheck_of_nan _ nan)

/-! ### Finite operands and infinities -/

theorem fpIsNan_of_finite {w : Word} (finite : FpFinite w) : fpIsNan w = false := by
  rw [fpIsNan, decide_eq_false finite, Bool.false_and]

theorem fpIsInf_of_finite {w : Word} (finite : FpFinite w) : fpIsInf w = false := by
  rw [fpIsInf, decide_eq_false finite, Bool.false_and]

theorem fpIsInf_iff {w : Word} : fpIsInf w = true ↔ fpExp w = 255 ∧ fpFrac w = 0 := by
  rw [fpIsInf, Bool.and_eq_true, decide_eq_true_iff, decide_eq_true_iff]

/-- An infinity is no zero. -/
theorem fpExp_ne_zero_of_inf {w : Word} (inf : fpIsInf w = true) : fpExp w ≠ 0 := fun zero => by
  rw [(fpIsInf_iff.mp inf).1] at zero
  exact absurd zero (by decide)

theorem finite_of_zero {w : Word} (zero : fpExp w = 0) : FpFinite w := fun inf => by
  rw [zero] at inf
  exact absurd inf (by decide)

/-- There is one infinity of each sign. -/
theorem eq_fpInf {w : Word} (inf : fpIsInf w = true) : w = fpInf (fpSign w) := by
  obtain ⟨exponent, fraction⟩ := fpIsInf_iff.mp inf
  conv => lhs; rw [← signed_fields w, exponent, fraction]
  rfl

/-- An operand that is no NaN is finite or an infinity. -/
theorem finite_or_inf {w : Word} (number : fpIsNan w = false) : (FpFinite w ∧ fpIsInf w = false) ∨ fpIsInf w = true := by
  by_cases finite : FpFinite w
  · exact .inl ⟨finite, fpIsInf_of_finite finite⟩
  · right
    have top : fpExp w = 255 := Decidable.of_not_not finite
    simpa [fpIsNan, fpIsInf, top] using number

end Sys2Proof.Machine
end

section
/-!
PROOFS. The results of the floating-point arithmetic (45 R562, R575, R580, R590 to R595) on operands that are no NaN: each
operation without its `nanCheck` and over the operands' own class, sign and value, then its table.
-/
namespace Sys2Proof.Machine

theorem fpDz_of_inf {w : Word} (inf : fpIsInf w = true) : fpDz w = fpInf (fpSign w) := by
  rcases fpDz_cases w with ⟨zero, -⟩ | ⟨-, same⟩
  · exact absurd zero (fpExp_ne_zero_of_inf inf)
  · rw [same]
    exact eq_fpInf inf

theorem fpOperand_eq_zero_iff {w : Word} : fpOperand w = 0 ↔ fpExp w = 0 := by
  rw [fpOperand]
  split
  next zero => exact iff_of_true rfl zero
  next nonzero =>
    refine iff_of_false (fun value => ?_) nonzero
    have magnitude := natAbs_fpVal w
    rw [value, fpMag, if_neg nonzero] at magnitude
    have := Nat.mul_pos (show 0 < 2 ^ 23 + (fpFrac w).toNat by omega) (Nat.two_pow_pos ((fpExp w).toNat - 1))
    omega

/-- An exact value is rounded once, an exact zero has the sign given (R566, R580). -/
theorem fpRoundInt_cases (rm : BitVec 2) (zeroNeg : Bool) (x : Int) (den : Nat) :
    (x ≠ 0 → fpRoundInt rm zeroNeg x den = fpRound rm (decide (x < 0)) x.natAbs den) ∧
      (x = 0 → fpRoundInt rm zeroNeg x den = fpExact (fpZero zeroNeg)) :=
  ⟨fun nonzero => if_neg nonzero, fun zero => if_pos zero⟩

theorem not_inf_of_finite {w : Word} (finite : FpFinite w) : ¬ fpIsInf w = true :=
  Bool.not_eq_true _ ▸ fpIsInf_of_finite finite

/-- A product with an infinity is no invalid one where the other factor is no zero. -/
theorem valid_of_inf_factor {a b : Word} (inf : (fpIsInf a = true ∧ fpExp b ≠ 0) ∨ (fpExp a ≠ 0 ∧ fpIsInf b = true)) :
    ¬ ((fpExp a = 0 ∧ fpIsInf b = true) ∨ (fpIsInf a = true ∧ fpExp b = 0)) ∧ (fpIsInf a = true ∨ fpIsInf b = true) := by
  rcases inf with ⟨infA, nonzeroB⟩ | ⟨nonzeroA, infB⟩
  · exact ⟨fun invalid => invalid.elim (fun h => fpExp_ne_zero_of_inf infA h.1) (fun h => nonzeroB h.2), .inl infA⟩
  · exact ⟨fun invalid => invalid.elim (fun h => nonzeroA h.1) (fun h => fpExp_ne_zero_of_inf infB h.2), .inr infB⟩

theorem valid_of_finite_factors {a b : Word} (finiteA : FpFinite a) (finiteB : FpFinite b) :
    ¬ ((fpExp a = 0 ∧ fpIsInf b = true) ∨ (fpIsInf a = true ∧ fpExp b = 0)) ∧ ¬ (fpIsInf a = true ∨ fpIsInf b = true) := by
  have notInfA := not_inf_of_finite finiteA
  have notInfB := not_inf_of_finite finiteB
  exact ⟨fun invalid => invalid.elim (fun h => notInfB h.2) (fun h => notInfA h.1), fun inf => inf.elim notInfA notInfB⟩

section numbers

variable {rm : BitVec 2} {d a b : Word}

/-- A sum of two numbers (R590). -/
theorem fpAdd_of_numbers (hd : fpIsNan d = false) (ha : fpIsNan a = false) : fpAdd rm d a =
    if (fpIsInf d = true ∧ fpIsInf a = true) ∧ fpSign d ≠ fpSign a then fpInvalid 0x7FC00001
    else if fpIsInf d = true then fpExact (fpDz d) else if fpIsInf a = true then fpExact (fpDz a)
    else fpRoundInt rm (zeroSum rm (fpSign d) (fpSign a)) (fpOperand d + fpOperand a) 1 := by
  simp only [fpAdd, fpIsInf_fpDz, fpSign_fpDz, fpVal_fpDz, Bool.and_eq_true, bne_iff_ne]
  exact nanCheck_of_numbers _ (by simp [hd, ha])

theorem fpAdd_table (hd : fpIsNan d = false) (ha : fpIsNan a = false) :
    (fpIsInf d = true → fpIsInf a = true → fpSign d ≠ fpSign a → fpAdd rm d a = fpInvalid 0x7FC00001) ∧
    (fpIsInf d = true → (fpIsInf a = true → fpSign d = fpSign a) → fpAdd rm d a = fpExact (fpInf (fpSign d))) ∧
    (FpFinite d → fpIsInf a = true → fpAdd rm d a = fpExact (fpInf (fpSign a))) ∧
    (FpFinite d → FpFinite a →
      fpAdd rm d a = fpRoundInt rm (zeroSum rm (fpSign d) (fpSign a)) (fpOperand d + fpOperand a) 1) := by
  rw [fpAdd_of_numbers hd ha]
  refine ⟨fun infD infA differ => ?_, fun infD agree => ?_, fun finite infA => ?_, fun finiteD finiteA => ?_⟩
  · exact if_pos ⟨⟨infD, infA⟩, differ⟩
  · rw [if_neg fun ⟨⟨_, infA⟩, differ⟩ => differ (agree infA), if_pos infD, fpDz_of_inf infD]
  · have notInf := not_inf_of_finite finite
    rw [if_neg fun ⟨⟨infD, _⟩, _⟩ => notInf infD, if_neg notInf, if_pos infA, fpDz_of_inf infA]
  · have notInf := not_inf_of_finite finiteD
    rw [if_neg fun ⟨⟨infD, _⟩, _⟩ => notInf infD, if_neg notInf, if_neg (not_inf_of_finite finiteA)]

/-- A product of two numbers (R592). -/
theorem fpMul_of_numbers (ha : fpIsNan a = false) (hb : fpIsNan b = false) : fpMul rm a b =
    if (fpExp a = 0 ∧ fpIsInf b = true) ∨ (fpIsInf a = true ∧ fpExp b = 0) then fpInvalid 0x7FC00002
    else if fpIsInf a = true ∨ fpIsInf b = true then fpExact (fpInf (fpSign a ^^ fpSign b))
    else if fpExp a = 0 ∨ fpExp b = 0 then fpExact (fpZero (fpSign a ^^ fpSign b))
    else fpRoundInt rm (fpSign a ^^ fpSign b) (fpOperand a * fpOperand b) (2 ^ 149) := by
  simp only [fpMul, fpIsInf_fpDz, fpSign_fpDz, fpVal_fpDz, fpIsZero_fpDz, Bool.or_eq_true, Bool.and_eq_true,
    decide_eq_true_iff]
  exact nanCheck_of_numbers _ (by simp [ha, hb])

theorem fpMul_table (ha : fpIsNan a = false) (hb : fpIsNan b = false) :
    ((fpExp a = 0 ∧ fpIsInf b = true) ∨ (fpIsInf a = true ∧ fpExp b = 0) → fpMul rm a b = fpInvalid 0x7FC00002) ∧
    ((fpIsInf a = true ∧ fpExp b ≠ 0) ∨ (fpExp a ≠ 0 ∧ fpIsInf b = true) →
      fpMul rm a b = fpExact (fpInf (fpSign a ^^ fpSign b))) ∧
    (FpFinite a → FpFinite b →
      fpMul rm a b = fpRoundInt rm (fpSign a ^^ fpSign b) (fpOperand a * fpOperand b) (2 ^ 149)) := by
  rw [fpMul_of_numbers ha hb]
  refine ⟨fun invalid => if_pos invalid, fun inf => ?_, fun finiteA finiteB => ?_⟩
  · obtain ⟨valid, some⟩ := valid_of_inf_factor inf
    rw [if_neg valid, if_pos some]
  · obtain ⟨valid, none⟩ := valid_of_finite_factors finiteA finiteB
    rw [if_neg valid, if_neg none]
    split
    next zero =>
      have product : fpOperand a * fpOperand b = 0 := by
        simpa only [Int.mul_eq_zero, fpOperand_eq_zero_iff] using zero
      exact ((fpRoundInt_cases ..).2 product).symm
    next => rfl

/-- A quotient of two numbers (R593). -/
theorem fpDiv_of_numbers (ha : fpIsNan a = false) (hb : fpIsNan b = false) : fpDiv rm a b =
    if (fpExp a = 0 ∧ fpExp b = 0) ∨ (fpIsInf a = true ∧ fpIsInf b = true) then fpInvalid 0x7FC00008
    else if fpIsInf a = true then fpExact (fpInf (fpSign a ^^ fpSign b))
    else if fpIsInf b = true then fpExact (fpZero (fpSign a ^^ fpSign b))
    else if fpExp b = 0 then { bits := fpInf (fpSign a ^^ fpSign b), flags := { FpFlags.none with fz := true } }
    else if fpExp a = 0 then fpExact (fpZero (fpSign a ^^ fpSign b))
    else fpRound rm (fpSign a ^^ fpSign b) ((fpOperand a).natAbs * 2 ^ 149) (fpOperand b).natAbs := by
  simp only [fpDiv, fpIsInf_fpDz, fpSign_fpDz, fpVal_fpDz, fpIsZero_fpDz, Bool.or_eq_true, Bool.and_eq_true,
    decide_eq_true_iff]
  exact nanCheck_of_numbers _ (by simp [ha, hb])

theorem fpDiv_table (ha : fpIsNan a = false) (hb : fpIsNan b = false) :
    ((fpExp a = 0 ∧ fpExp b = 0) ∨ (fpIsInf a = true ∧ fpIsInf b = true) → fpDiv rm a b = fpInvalid 0x7FC00008) ∧
    (fpIsInf a = true → FpFinite b → fpDiv rm a b = fpExact (fpInf (fpSign a ^^ fpSign b))) ∧
    (FpFinite a → fpIsInf b = true → fpDiv rm a b = fpExact (fpZero (fpSign a ^^ fpSign b))) ∧
    (FpFinite a → fpExp a ≠ 0 → fpExp b = 0 → fpDiv rm a b =
      { bits := fpInf (fpSign a ^^ fpSign b), flags := { FpFlags.none with fz := true } }) ∧
    (fpExp a = 0 → FpFinite b → fpExp b ≠ 0 → fpDiv rm a b = fpExact (fpZero (fpSign a ^^ fpSign b))) ∧
    (FpFinite a → FpFinite b → fpExp a ≠ 0 → fpExp b ≠ 0 →
      fpDiv rm a b = fpRound rm (fpSign a ^^ fpSign b) ((fpVal a).natAbs * 2 ^ 149) (fpVal b).natAbs) := by
  rw [fpDiv_of_numbers ha hb]
  refine ⟨fun invalid => if_pos invalid, fun infA finiteB => ?_, fun finiteA infB => ?_, fun finiteA nonzeroA zeroB => ?_,
    fun zeroA finiteB nonzeroB => ?_, fun finiteA finiteB nonzeroA nonzeroB => ?_⟩
  · have nonzeroA := fpExp_ne_zero_of_inf infA
    simp only [nonzeroA, infA, fpIsInf_of_finite finiteB, false_and, Bool.false_eq_true, and_false, or_self, if_false, if_true]
  · have nonzeroB := fpExp_ne_zero_of_inf infB
    simp only [nonzeroB, infB, fpIsInf_of_finite finiteA, false_and, Bool.false_eq_true, and_false, or_self, if_false, if_true]
  · simp only [nonzeroA, zeroB, fpIsInf_of_finite finiteA, fpIsInf_of_finite (finite_of_zero zeroB), false_and,
      Bool.false_eq_true, or_self, if_false, if_true]
  · simp only [zeroA, nonzeroB, fpIsInf_of_finite finiteB, fpIsInf_of_finite (finite_of_zero zeroA), and_false,
      Bool.false_eq_true, or_self, if_false, if_true]
  · simp only [nonzeroA, nonzeroB, fpIsInf_of_finite finiteA, fpIsInf_of_finite finiteB, and_false, Bool.false_eq_true,
      or_self, if_false, fpOperand]

/-- A product added to a number or subtracted from it (R594). -/
theorem fpMadd_of_numbers (sub : Bool) (hd : fpIsNan d = false) (ha : fpIsNan a = false) (hb : fpIsNan b = false) :
    fpMadd sub rm d a b =
      if (fpExp a = 0 ∧ fpIsInf b = true) ∨ (fpIsInf a = true ∧ fpExp b = 0) then fpInvalid 0x7FC00002
      else if fpIsInf a = true ∨ fpIsInf b = true then
        if fpIsInf d = true ∧ fpSign d ≠ ((fpSign a ^^ fpSign b) ^^ sub) then fpInvalid 0x7FC00001
        else fpExact (fpInf ((fpSign a ^^ fpSign b) ^^ sub))
      else if fpIsInf d = true then fpExact (fpDz d)
      else fpRoundInt rm (zeroSum rm (fpSign d) ((fpSign a ^^ fpSign b) ^^ sub))
        (fpOperand d * 2 ^ 149 + if sub then -(fpOperand a * fpOperand b) else fpOperand a * fpOperand b) (2 ^ 149) := by
  simp only [fpMadd, fpIsInf_fpDz, fpSign_fpDz, fpVal_fpDz, fpIsZero_fpDz, Bool.or_eq_true, Bool.and_eq_true,
    decide_eq_true_iff, bne_iff_ne]
  exact nanCheck_of_numbers _ (by simp [hd, ha, hb])

theorem fpMadd_table (sub : Bool) (hd : fpIsNan d = false) (ha : fpIsNan a = false) (hb : fpIsNan b = false) :
    ((fpExp a = 0 ∧ fpIsInf b = true) ∨ (fpIsInf a = true ∧ fpExp b = 0) → fpMadd sub rm d a b = fpInvalid 0x7FC00002) ∧
    ((fpIsInf a = true ∧ fpExp b ≠ 0) ∨ (fpExp a ≠ 0 ∧ fpIsInf b = true) →
      (fpIsInf d = true → fpSign d ≠ ((fpSign a ^^ fpSign b) ^^ sub) → fpMadd sub rm d a b = fpInvalid 0x7FC00001) ∧
      ((fpIsInf d = true → fpSign d = ((fpSign a ^^ fpSign b) ^^ sub)) →
        fpMadd sub rm d a b = fpExact (fpInf ((fpSign a ^^ fpSign b) ^^ sub)))) ∧
    (FpFinite a → FpFinite b → fpIsInf d = true → fpMadd sub rm d a b = fpExact d) ∧
    (FpFinite a → FpFinite b → FpFinite d → fpMadd sub rm d a b =
      fpRoundInt rm (zeroSum rm (fpSign d) ((fpSign a ^^ fpSign b) ^^ sub))
        (fpOperand d * 2 ^ 149 + if sub then -(fpOperand a * fpOperand b) else fpOperand a * fpOperand b) (2 ^ 149)) := by
  rw [fpMadd_of_numbers sub hd ha hb]
  refine ⟨fun invalid => if_pos invalid, fun inf => ?_, fun finiteA finiteB infD => ?_, fun finiteA finiteB finiteD => ?_⟩
  · obtain ⟨valid, some⟩ := valid_of_inf_factor inf
    rw [if_neg valid, if_pos some]
    exact ⟨fun infD differ => if_pos ⟨infD, differ⟩, fun agree => if_neg fun ⟨infD, differ⟩ => differ (agree infD)⟩
  · obtain ⟨valid, none⟩ := valid_of_finite_factors finiteA finiteB
    rw [if_neg valid, if_neg none, if_pos infD, fpDz_of_inf infD, ← eq_fpInf infD]
  · obtain ⟨valid, none⟩ := valid_of_finite_factors finiteA finiteB
    rw [if_neg valid, if_neg none, if_neg (not_inf_of_finite finiteD)]

/-- The seed of a number (R595). -/
theorem fpQseed_of_number (ha : fpIsNan a = false) : fpQseed a =
    if fpExp a = 0 then fpExact (fpInf (fpSign a)) else if fpSign a = true then fpInvalid 0x7FC00004
    else if fpIsInf a = true then fpExact 0 else fpExact (qseedApprox (fpDz a)) := by
  simp only [fpQseed, fpIsInf_fpDz, fpSign_fpDz, fpIsZero_fpDz, decide_eq_true_iff]
  exact nanCheck_of_numbers _ (by simp [ha])

/-- The approximation is a positive normal number (R595). -/
theorem qseedApprox_normal (w : Word) :
    fpSign (qseedApprox w) = false ∧ 1 ≤ (fpExp (qseedApprox w)).toNat ∧ (fpExp (qseedApprox w)).toNat ≤ 254 := by
  have value : (qseedApprox w).toNat = ((Config.qseedApprox w).1.val + 1) * 2 ^ 23 + (Config.qseedApprox w).2.toNat := by
    have exponent : (0#1 ++ BitVec.ofNat 8 ((Config.qseedApprox w).1.val + 1)).toNat = (Config.qseedApprox w).1.val + 1 := by
      rw [BitVec.toNat_append, BitVec.toNat_ofNat, BitVec.toNat_ofNat, Nat.zero_mod, Nat.zero_shiftLeft, Nat.zero_or]
      omega
    rw [qseedApprox, BitVec.toNat_append, exponent, ← Nat.shiftLeft_add_eq_or_of_lt (BitVec.isLt _), Nat.shiftLeft_eq]
  have fraction := (Config.qseedApprox w).2.isLt
  rw [fpSign_eq, toNat_fpExp, value, decide_eq_false_iff_not]
  omega

theorem fpQseed_table (ha : fpIsNan a = false) :
    (fpExp a = 0 → fpQseed a = fpExact (fpInf (fpSign a))) ∧
    (fpExp a ≠ 0 → fpSign a = true → fpQseed a = fpInvalid 0x7FC00004) ∧
    (fpIsInf a = true → fpSign a = false → fpQseed a = fpExact 0) ∧
    (FpFinite a → fpExp a ≠ 0 → fpSign a = false → ∃ w, fpQseed a = fpExact w ∧ fpSign w = false ∧
      1 ≤ (fpExp w).toNat ∧ (fpExp w).toNat ≤ 254) := by
  rw [fpQseed_of_number ha]
  refine ⟨fun zero => if_pos zero, fun nonzero negative => ?_, fun inf positive => ?_, fun finite nonzero positive => ?_⟩
  · rw [if_neg nonzero, if_pos negative]
  · rw [if_neg (fpExp_ne_zero_of_inf inf), positive, if_neg Bool.false_ne_true, if_pos inf]
  · rw [if_neg nonzero, positive, if_neg Bool.false_ne_true, if_neg (not_inf_of_finite finite)]
    exact ⟨_, rfl, qseedApprox_normal _⟩

end numbers

/-- Settles O57: the tables of the operations; the difference is the table of the sum at the inverted number. -/
theorem arithmeticResults : Obligations.ArithmeticResults := by
  unfold Obligations.ArithmeticResults
  intro rm d a b hd ha hb zero inf zeroOf infOf rounded sumSign sum sign
  have isRounded (x : Int) (den : Nat) (zeroNeg : Bool) (r : FpResult) (same : r = fpRoundInt rm zeroNeg x den) :
      rounded x den zeroNeg r := same ▸ fpRoundInt_cases rm zeroNeg x den
  have isSum (y : Word) (hy : fpIsNan y = false) : sum y (fpSign y) (fpOperand y) (fpAdd rm d y) := by
    obtain ⟨opposite, left, right, finite⟩ := fpAdd_table (rm := rm) hd hy
    exact ⟨opposite, left, right, fun finiteD finiteY => isRounded _ _ _ _ (finite finiteD finiteY)⟩
  obtain ⟨mulInvalid, mulInf, mulFinite⟩ := fpMul_table (rm := rm) ha hb
  obtain ⟨divInvalid, divInf, divByInf, divByZero, divZero, divFinite⟩ := fpDiv_table (rm := rm) ha hb
  obtain ⟨seedZero, seedNegative, seedInf, seedPositive⟩ := fpQseed_table ha
  refine ⟨isSum a ha, ?_, mulInvalid, mulInf, fun finiteA finiteB => isRounded _ _ _ _ (mulFinite finiteA finiteB),
    divInvalid, divInf, divByInf, divByZero, divZero, divFinite, fun sub => ?_, seedZero, seedNegative, seedInf,
    seedPositive⟩
  · have difference := isSum (fpNeg a) (by rw [fpIsNan_fpNeg, ha])
    simp only [sum, inf, FpFinite, fpSign_fpNeg, fpOperand_fpNeg, fpIsInf_fpNeg, fpExp_fpNeg] at difference
    exact difference
  · obtain ⟨maddInvalid, maddInf, maddAddend, maddFinite⟩ := fpMadd_table (rm := rm) sub hd ha hb
    exact ⟨maddInvalid, maddInf, maddAddend, fun finiteA finiteB finiteD =>
      isRounded _ _ _ _ (maddFinite finiteA finiteB finiteD)⟩

end Sys2Proof.Machine
end

section
/-!
PROOFS. CMP.F and the conversions (45 R561, R596 to R600): the order of the words as that of integers, and the integer that a
magnitude is rounded to.
-/
namespace Sys2Proof.Machine

/-! ### The order of the words (R596) -/

/-- What stands for infinity in `fpCmp`. -/
def fpTop : Int := 2 ^ 300

/-- The value of a number that is no NaN, an infinity beyond every finite one. -/
def fpOrder (w : Word) : Int := if fpIsInf w then (if fpSign w then -fpTop else fpTop) else fpVal w

theorem natCast_lt_two_pow {n i j k : Nat} (small : n < 2 ^ i * 2 ^ j) (less : i + j < k) : (n : Int) < 2 ^ k := by
  rw [← Nat.pow_add] at small
  calc (n : Int) < ((2 ^ k : Nat) : Int) :=
      Int.ofNat_lt.mpr (Nat.lt_trans small (Nat.pow_lt_pow_right (by decide) less))
    _ = 2 ^ k := Int.natCast_pow 2 k

theorem fpMag_lt {w : Word} (finite : FpFinite w) : (fpMag w : Int) < fpTop := by
  have fraction := (fpFrac w).isLt
  have exponent : (fpExp w).toNat ≠ 255 := fun top => finite (BitVec.eq_of_toNat_eq top)
  have bound := (fpExp w).isLt
  have grid : fpMag w < 2 ^ 24 * 2 ^ 253 := by
    rw [fpMag]
    split
    · omega
    · calc (2 ^ 23 + (fpFrac w).toNat) * 2 ^ ((fpExp w).toNat - 1) < 2 ^ 24 * 2 ^ ((fpExp w).toNat - 1) :=
          Nat.mul_lt_mul_of_pos_right (by omega) (Nat.two_pow_pos _)
        _ ≤ 2 ^ 24 * 2 ^ 253 := Nat.mul_le_mul_left _ (Nat.pow_le_pow_right (by decide) (by omega))
  rw [fpTop]
  exact natCast_lt_two_pow (i := 24) (j := 253) (k := 300) grid (by decide)

/-- A number is an infinity of either sign, or finite and between both. -/
theorem fpOrder_cases {w : Word} (number : fpIsNan w = false) :
    (w = fpInf false ∧ fpOrder w = fpTop) ∨ (w = fpInf true ∧ fpOrder w = -fpTop) ∨
      (FpFinite w ∧ fpOrder w = fpVal w ∧ -fpTop < fpVal w ∧ fpVal w < fpTop) := by
  rw [fpOrder]
  rcases finite_or_inf number with ⟨finite, notInf⟩ | inf
  · have bound := fpMag_lt finite
    have magnitude := natAbs_fpVal w
    rw [notInf]
    exact .inr (.inr ⟨finite, rfl, by omega, by omega⟩)
  · have same := eq_fpInf inf
    rw [inf]
    cases sign : fpSign w with
    | false => exact .inl ⟨sign ▸ same, rfl⟩
    | true => exact .inr (.inl ⟨sign ▸ same, rfl⟩)

theorem fpTop_pos : 0 < fpTop := Int.pow_pos (by decide)

@[simp] theorem fpIsInf_fpInf (neg : Bool) : fpIsInf (fpInf neg) = true := by cases neg <;> rfl
@[simp] theorem fpSign_fpInf (neg : Bool) : fpSign (fpInf neg) = neg := fpSign_signed ..
@[simp] theorem fpOrder_fpInf (neg : Bool) : fpOrder (fpInf neg) = if neg then -fpTop else fpTop := by
  rw [fpOrder, fpIsInf_fpInf, fpSign_fpInf]
  rfl

section numbers

variable {a b : Word}

theorem fpOrder_le (hb : fpIsNan b = false) : fpOrder b ≤ fpTop := by
  have positive := fpTop_pos
  rcases fpOrder_cases hb with ⟨-, order⟩ | ⟨-, order⟩ | ⟨-, order, -, high⟩ <;> omega

theorem fpOrder_eq_top_iff (hb : fpIsNan b = false) : fpTop = fpOrder b ↔ fpInf false = b := by
  refine ⟨fun top => ?_, fun inf => by rw [← inf, fpOrder_fpInf]; rfl⟩
  have positive := fpTop_pos
  rcases fpOrder_cases hb with ⟨inf, -⟩ | ⟨-, order⟩ | ⟨-, order, -, high⟩
  · exact inf.symm
  · omega
  · omega

theorem fpOrder_eq_neg_top_iff (hb : fpIsNan b = false) : -fpTop = fpOrder b ↔ fpInf true = b := by
  refine ⟨fun bottom => ?_, fun inf => by rw [← inf, fpOrder_fpInf]; rfl⟩
  have positive := fpTop_pos
  rcases fpOrder_cases hb with ⟨-, order⟩ | ⟨inf, -⟩ | ⟨-, order, low, -⟩
  · omega
  · exact inf.symm
  · omega

theorem neg_top_le_fpOrder (hb : fpIsNan b = false) : -fpTop ≤ fpOrder b := by
  have positive := fpTop_pos
  rcases fpOrder_cases hb with ⟨-, order⟩ | ⟨-, order⟩ | ⟨-, order, low, -⟩ <;> omega

/-- The order of the words is that of the integers that stand for them. -/
theorem fpLess_iff (ha : fpIsNan a = false) (hb : fpIsNan b = false) : FpLess a b ↔ fpOrder a < fpOrder b := by
  rw [FpLess]
  rcases fpOrder_cases ha with ⟨rfl, orderA⟩ | ⟨rfl, orderA⟩ | ⟨finiteA, orderA, lowA, highA⟩
  · rw [if_pos (fpIsInf_fpInf false), fpSign_fpInf, orderA]
    exact iff_of_false (fun ⟨sign, _⟩ => Bool.false_ne_true sign) (Int.not_lt.mpr (fpOrder_le hb))
  · rw [if_pos (fpIsInf_fpInf true), fpSign_fpInf, orderA, Int.lt_iff_le_and_ne, ne_eq (-fpTop), fpOrder_eq_neg_top_iff hb]
    exact ⟨fun ⟨_, other⟩ => ⟨neg_top_le_fpOrder hb, other.symm⟩, fun ⟨_, other⟩ => ⟨rfl, Ne.symm other⟩⟩
  · rw [if_neg (not_inf_of_finite finiteA), orderA]
    rcases fpOrder_cases hb with ⟨rfl, orderB⟩ | ⟨rfl, orderB⟩ | ⟨finiteB, orderB, -, -⟩
    · rw [if_pos (fpIsInf_fpInf false), fpSign_fpInf, orderB]
      exact iff_of_true rfl highA
    · rw [if_pos (fpIsInf_fpInf true), fpSign_fpInf, orderB]
      exact iff_of_false Bool.true_eq_false.mp (Int.not_lt.mpr (Int.le_of_lt lowA))
    · rw [if_neg (not_inf_of_finite finiteB), orderB]

/-- Two numbers have one place in the order where they are one infinity or finite of one value. -/
theorem fpOrder_eq_iff (ha : fpIsNan a = false) (hb : fpIsNan b = false) :
    fpOrder a = fpOrder b ↔ a = b ∨ (FpFinite a ∧ FpFinite b ∧ fpVal a = fpVal b) := by
  rcases fpOrder_cases ha with ⟨rfl, orderA⟩ | ⟨rfl, orderA⟩ | ⟨finiteA, orderA, lowA, highA⟩
  · rw [orderA, fpOrder_eq_top_iff hb]
    exact ⟨.inl, fun same => same.resolve_right fun ⟨finite, _⟩ => finite rfl⟩
  · rw [orderA, fpOrder_eq_neg_top_iff hb]
    exact ⟨.inl, fun same => same.resolve_right fun ⟨finite, _⟩ => finite rfl⟩
  · rw [orderA]
    refine ⟨fun same => .inr ?_, ?_⟩
    · rcases fpOrder_cases hb with ⟨-, orderB⟩ | ⟨-, orderB⟩ | ⟨finiteB, orderB, -, -⟩
      · omega
      · omega
      · exact ⟨finiteA, finiteB, same.trans orderB⟩
    · rintro (rfl | ⟨-, finiteB, same⟩)
      · exact orderA.symm
      · rw [fpOrder, fpIsInf_of_finite finiteB]
        exact same

end numbers

theorem fpCmp_eq (a b : Word) : fpCmp a b =
    { bits := 0#26 ++ BitVec.ofBool (fpIsDenormal b) ++ BitVec.ofBool (fpIsDenormal a) ++
        BitVec.ofBool (fpIsNan a || fpIsNan b) ++
        BitVec.ofBool (!(fpIsNan a || fpIsNan b) && decide (fpOrder b < fpOrder a)) ++
        BitVec.ofBool (!(fpIsNan a || fpIsNan b) && decide (fpOrder a = fpOrder b)) ++
        BitVec.ofBool (!(fpIsNan a || fpIsNan b) && decide (fpOrder a < fpOrder b)),
      flags := { FpFlags.none with fi := fpIsSnan a || fpIsSnan b } } := rfl

/-- The bits of a result of CMP.F, the lowest first. -/
theorem flagWord_bits (denormalB denormalA unordered greater equal less : Bool) :
    let r : Word := 0#26 ++ BitVec.ofBool denormalB ++ BitVec.ofBool denormalA ++ BitVec.ofBool unordered ++
      BitVec.ofBool greater ++ BitVec.ofBool equal ++ BitVec.ofBool less
    r.getLsbD 0 = less ∧ r.getLsbD 1 = equal ∧ r.getLsbD 2 = greater ∧ r.getLsbD 3 = unordered ∧
      r.getLsbD 4 = denormalA ∧ r.getLsbD 5 = denormalB ∧ r.extractLsb' 6 26 = 0 := by
  revert denormalB denormalA unordered greater equal less
  decide


/-- The comparison bits of CMP.F: one of the first three without a NaN, the fourth with one. -/
theorem fpCmp_bits (a b : Word) :
    (fpCmp a b).bits.getLsbD 0 = decide (¬ (fpIsNan a = true ∨ fpIsNan b = true) ∧ fpOrder a < fpOrder b) ∧
    (fpCmp a b).bits.getLsbD 1 = decide (¬ (fpIsNan a = true ∨ fpIsNan b = true) ∧ fpOrder a = fpOrder b) ∧
    (fpCmp a b).bits.getLsbD 2 = decide (¬ (fpIsNan a = true ∨ fpIsNan b = true) ∧ fpOrder b < fpOrder a) ∧
    (fpCmp a b).bits.getLsbD 3 = decide (fpIsNan a = true ∨ fpIsNan b = true) := by
  obtain ⟨less, equal, greater, unordered, -⟩ := flagWord_bits (fpIsDenormal b) (fpIsDenormal a) (fpIsNan a || fpIsNan b)
    (!(fpIsNan a || fpIsNan b) && decide (fpOrder b < fpOrder a))
    (!(fpIsNan a || fpIsNan b) && decide (fpOrder a = fpOrder b))
    (!(fpIsNan a || fpIsNan b) && decide (fpOrder a < fpOrder b))
  rw [fpCmp_eq]
  refine ⟨less.trans ?_, equal.trans ?_, greater.trans ?_, unordered.trans ?_⟩ <;> simp

theorem fpCmp_denormal_bits (a b : Word) :
    (fpCmp a b).bits.getLsbD 4 = fpIsDenormal a ∧ (fpCmp a b).bits.getLsbD 5 = fpIsDenormal b ∧
      (fpCmp a b).bits.extractLsb' 6 26 = 0 := by
  obtain ⟨-, -, -, -, denormal⟩ := flagWord_bits (fpIsDenormal b) (fpIsDenormal a) (fpIsNan a || fpIsNan b)
    (!(fpIsNan a || fpIsNan b) && decide (fpOrder b < fpOrder a))
    (!(fpIsNan a || fpIsNan b) && decide (fpOrder a = fpOrder b))
    (!(fpIsNan a || fpIsNan b) && decide (fpOrder a < fpOrder b))
  exact denormal

theorem fpIsDenormal_iff {w : Word} : fpIsDenormal w = true ↔ fpExp w = 0 ∧ fpFrac w ≠ 0 := by
  rw [fpIsDenormal, Bool.and_eq_true, decide_eq_true_iff, decide_eq_true_iff]

/-- Both zeros have one value. -/
theorem fpOrder_of_zero {w : Word} (zero : fpIsZero w = true) : fpIsNan w = false ∧ fpOrder w = 0 := by
  rw [fpIsZero, Bool.and_eq_true, decide_eq_true_iff, decide_eq_true_iff] at zero
  obtain ⟨exponent, fraction⟩ := zero
  have finite := finite_of_zero exponent
  refine ⟨fpIsNan_of_finite finite, ?_⟩
  have magnitude := natAbs_fpVal w
  rw [fpMag, if_pos exponent, fraction] at magnitude
  rw [fpOrder, fpIsInf_of_finite finite]
  exact Int.natAbs_eq_zero.mp magnitude

/-- Exactly one of the four comparison bits is set: the order of two numbers is total. -/
theorem fpCmp_bits_exclusive (a b : Word) : ((fpCmp a b).bits.getLsbD 0).toNat + ((fpCmp a b).bits.getLsbD 1).toNat +
    ((fpCmp a b).bits.getLsbD 2).toNat + ((fpCmp a b).bits.getLsbD 3).toNat = 1 := by
  obtain ⟨less, equal, greater, unordered⟩ := fpCmp_bits a b
  rw [less, equal, greater, unordered]
  by_cases nan : fpIsNan a = true ∨ fpIsNan b = true
  · simp only [nan, not_true, false_and, decide_true, decide_false, Bool.toNat_true, Bool.toNat_false]
  · simp only [nan, not_false_iff, true_and, decide_false, Bool.toNat_false]
    rcases Int.lt_trichotomy (fpOrder a) (fpOrder b) with order | order | order
    · simp [order, Int.ne_of_lt order, Int.not_lt.mpr (Int.le_of_lt order)]
    · simp [order]
    · simp [order, Int.ne_of_gt order, Int.not_lt.mpr (Int.le_of_lt order)]

/-- Settles O55: the comparison bits over `fpOrder`, whose order and equality are those of the values. -/
theorem compareOrdersTheValues : Obligations.CompareOrdersTheValues := by
  unfold Obligations.CompareOrdersTheValues
  refine ⟨fun a b => ?_, fun a b c k first second => ?_⟩
  · obtain ⟨less, equal, greater, unordered⟩ := fpCmp_bits a b
    obtain ⟨denormalA, denormalB, others⟩ := fpCmp_denormal_bits a b
    have numbers (number : ¬ (fpIsNan a = true ∨ fpIsNan b = true)) : fpIsNan a = false ∧ fpIsNan b = false := by
      simpa using number
    refine ⟨?_, ?_, ?_, ?_, fpCmp_bits_exclusive a b, ?_, ?_, others, rfl, fun zeroA zeroB => ?_⟩
    · rw [less, decide_eq_true_iff]
      exact and_congr_right fun number => (fpLess_iff (numbers number).1 (numbers number).2).symm
    · rw [equal, decide_eq_true_iff]
      exact and_congr_right fun number => fpOrder_eq_iff (numbers number).1 (numbers number).2
    · rw [greater, decide_eq_true_iff]
      exact and_congr_right fun number => (fpLess_iff (numbers number).2 (numbers number).1).symm
    · rw [unordered, decide_eq_true_iff]
    · rw [denormalA, fpIsDenormal_iff]
    · rw [denormalB, fpIsDenormal_iff]
    · obtain ⟨numberA, valueA⟩ := fpOrder_of_zero zeroA
      obtain ⟨numberB, valueB⟩ := fpOrder_of_zero zeroB
      rw [equal, numberA, numberB, valueA, valueB]
      rfl
  · obtain ⟨less, equal, -⟩ := fpCmp_bits a b
    obtain ⟨less', equal', -⟩ := fpCmp_bits b c
    obtain ⟨less'', equal'', -⟩ := fpCmp_bits a c
    have notNan (number : ¬ (fpIsNan a = true ∨ fpIsNan b = true)) (number' : ¬ (fpIsNan b = true ∨ fpIsNan c = true)) :
        ¬ (fpIsNan a = true ∨ fpIsNan c = true) :=
      fun nan => nan.elim (fun nanA => number (.inl nanA)) fun nanC => number' (.inr nanC)
    match k with
    | ⟨0, _⟩ =>
      obtain ⟨number, order⟩ := of_decide_eq_true (less ▸ first)
      obtain ⟨number', order'⟩ := of_decide_eq_true (less' ▸ second)
      exact less''.trans (decide_eq_true ⟨notNan number number', Int.lt_trans order order'⟩)
    | ⟨1, _⟩ =>
      obtain ⟨number, order⟩ := of_decide_eq_true (equal ▸ first)
      obtain ⟨number', order'⟩ := of_decide_eq_true (equal' ▸ second)
      exact equal''.trans (decide_eq_true ⟨notNan number number', order.trans order'⟩)

end Sys2Proof.Machine
end

section
/-!
PROOFS. The conversions between floating-point numbers and integers (45 R597 to R600): the integer that a signed magnitude is
rounded to, and the powers of two of the scaled forms.
-/
namespace Sys2Proof.Machine

/-! ### To an integer (R597, R598) -/

/-- A magnitude with a sign. -/
def signedInt (neg : Bool) (m : Nat) : Int := if neg then -(m : Int) else m

theorem signedInt_mul (neg : Bool) (m k : Nat) : signedInt neg m * k = signedInt neg (m * k) := by
  cases neg with
  | false => exact (Int.natCast_mul m k).symm
  | true => exact (Int.neg_mul ..).trans (congrArg Neg.neg (Int.natCast_mul m k).symm)

/-- The magnitude rounded by `roundDiv` for its sign is the value rounded in the mode (R564, R565). -/
theorem roundedInt_roundDiv (rm : BitVec 2) (neg : Bool) (num : Nat) {den : Nat} (positive : 0 < den) :
    RoundedInt rm (signedInt neg num) den (signedInt neg (roundDiv rm neg num den)) := by
  obtain ⟨below, above, -, nearest, away, toward⟩ := roundDiv_rounded (rm := rm) (neg := neg) (num := num) positive
  cases neg with
  | false =>
    refine ⟨fun mode => ?_, fun mode => ?_, fun mode => ?_, fun mode => ?_⟩ <;> rw [signedInt_mul] <;>
      simp only [signedInt, Bool.false_eq_true, if_false]
    · obtain ⟨least, most, tie⟩ := nearest mode
      omega
    · have up := away (.inl ⟨mode, rfl⟩)
      omega
    · have down := toward (.inr (.inl ⟨mode, rfl⟩))
      omega
    · have down := toward (.inr (.inr mode))
      omega
  | true =>
    refine ⟨fun mode => ?_, fun mode => ?_, fun mode => ?_, fun mode => ?_⟩ <;> rw [signedInt_mul] <;>
      simp only [signedInt, if_true]
    · obtain ⟨least, most, tie⟩ := nearest mode
      omega
    · have down := toward (.inl ⟨mode, rfl⟩)
      omega
    · have up := away (.inr ⟨mode, rfl⟩)
      omega
    · have down := toward (.inr (.inr mode))
      omega

theorem toInteger_table (rm : BitVec 2) (neg : Bool) (num : Nat) {den : Nat} {lo hi : Int} (positive : 0 < den)
    (range : lo ≤ hi) :
    let n := signedInt neg (roundDiv rm neg num den)
    (n < lo → toInteger rm neg num den lo hi = fpInvalid (BitVec.ofInt 32 lo)) ∧
    (hi < n → toInteger rm neg num den lo hi = fpInvalid (BitVec.ofInt 32 hi)) ∧
    (lo ≤ n → n ≤ hi → toInteger rm neg num den lo hi = { bits := BitVec.ofInt 32 n, flags :=
      { fi := false, fv := false, fz := false, fu := false, fx := decide (n * den ≠ signedInt neg num) } }) := by
  intro n
  have exact : n * den ≠ signedInt neg num ↔ num % den ≠ 0 := by
    have rounded : Rounded rm neg num den (roundDiv rm neg num den) := roundDiv_rounded positive
    refine not_congr (Iff.trans ?_ rounded.exact)
    rw [signedInt_mul]
    cases neg with
    | false => exact Int.natCast_inj
    | true => exact Int.neg_inj.trans Int.natCast_inj
  refine ⟨fun low => if_pos low, fun high => ?_, fun low high => ?_⟩
  · exact (if_neg (show ¬ n < lo by omega)).trans (if_pos high)
  · rw [decide_eq_decide.mpr exact]
    exact (if_neg (Int.not_lt.mpr low)).trans (if_neg (Int.not_lt.mpr high))

theorem fpToInteger_of_nan {rm : BitVec 2} {x : Word} {shift lo hi : Int} (nan : fpIsNan x = true) :
    fpToInteger rm x shift lo hi = fpInvalid 0 := if_pos ((fpIsNan_fpDz x).trans nan)

theorem fpToInteger_of_inf {rm : BitVec 2} {x : Word} {shift lo hi : Int} (inf : fpIsInf x = true) :
    fpToInteger rm x shift lo hi = fpInvalid (BitVec.ofInt 32 (if fpSign x then lo else hi)) := by
  have notNan : fpIsNan x = false := by
    obtain ⟨-, fraction⟩ := fpIsInf_iff.mp inf
    simp [fpIsNan, fraction]
  simp only [fpToInteger, fpIsNan_fpDz, fpIsInf_fpDz, fpSign_fpDz, notNan, inf, Bool.false_eq_true, if_false, if_true]

/-- A finite operand, scaled by a power of two above or below that of its last place. -/
theorem fpToInteger_of_finite {rm : BitVec 2} {x : Word} {shift lo hi : Int} (finite : FpFinite x) :
    fpToInteger rm x shift lo hi =
      toInteger rm (fpSign x) ((fpOperand x).natAbs * 2 ^ (shift - 149).toNat) (2 ^ (149 - shift).toNat) lo hi := by
  simp only [fpToInteger, fpIsNan_fpDz, fpIsInf_fpDz, fpSign_fpDz, fpVal_fpDz, fpIsNan_of_finite finite,
    fpIsInf_of_finite finite, Bool.false_eq_true, if_false]
  split
  next up => rw [show (149 - shift).toNat = 0 by omega, Nat.pow_zero]
  next down => rw [show (shift - 149).toNat = 0 by omega, Nat.pow_zero, Nat.mul_one, Int.neg_sub]

theorem fpOperand_eq (x : Word) : fpOperand x = signedInt (fpSign x) (fpOperand x).natAbs := by
  rw [fpOperand]
  split
  · cases fpSign x <;> rfl
  · rw [natAbs_fpVal]
    exact fpVal_eq x

/-- The conversions to an integer in `lo .. hi`. -/
theorem fpToInteger_table (rm : BitVec 2) (x : Word) (shift : Int) {lo hi : Int} (range : lo ≤ hi) :
    let num : Int := fpOperand x * 2 ^ (shift - 149).toNat
    let den : Nat := 2 ^ (149 - shift).toNat
    let r := fpToInteger rm x shift lo hi
    (fpIsNan x = true → r = fpInvalid 0) ∧
    (fpIsInf x = true → r = fpInvalid (BitVec.ofInt 32 (if fpSign x then lo else hi))) ∧
    (FpFinite x → ∃ n, RoundedInt rm num den n ∧
      (n < lo → r = fpInvalid (BitVec.ofInt 32 lo)) ∧ (hi < n → r = fpInvalid (BitVec.ofInt 32 hi)) ∧
      (lo ≤ n → n ≤ hi → r =
        { bits := BitVec.ofInt 32 n,
          flags := { fi := false, fv := false, fz := false, fu := false, fx := decide (n * den ≠ num) } })) := by
  intro num den r
  refine ⟨fpToInteger_of_nan, fpToInteger_of_inf, fun finite => ?_⟩
  have scaled : num = signedInt (fpSign x) ((fpOperand x).natAbs * 2 ^ (shift - 149).toNat) := by
    rw [← signedInt_mul, ← fpOperand_eq, Int.natCast_pow]
    rfl
  have positive : 0 < den := Nat.two_pow_pos _
  rw [show r = _ from fpToInteger_of_finite finite, scaled]
  exact ⟨_, roundedInt_roundDiv rm _ _ positive, toInteger_table rm _ _ positive range⟩

/-! ### From an integer (R599, R600) -/

theorem fpOfInteger_eq (rm : BitVec 2) (x : Word) (shift : Int) : fpOfInteger rm x shift =
    fpRoundInt rm false (x.toInt * 2 ^ (shift + 149).toNat) (2 ^ (-149 - shift).toNat) := by
  rw [fpOfInteger]
  split
  next up => rw [show (-149 - shift).toNat = 0 by omega, Nat.pow_zero]
  next down =>
    rw [show (shift + 149).toNat = 0 by omega, Int.pow_zero, Int.mul_one, show -(shift + 149) = -149 - shift by omega]

theorem fpOfInteger_of_zero (rm : BitVec 2) (shift : Int) : fpOfInteger rm 0 shift = fpExact 0 := by
  rw [fpOfInteger_eq]
  exact (fpRoundInt_cases ..).2 (Int.zero_mul _)

theorem fpOfInteger_of_nonzero (rm : BitVec 2) {x : Word} (shift : Int) (nonzero : x ≠ 0) : fpOfInteger rm x shift =
    fpRound rm x.msb (x.toInt.natAbs * 2 ^ (shift + 149).toNat) (2 ^ (-149 - shift).toNat) := by
  have scale : (0 : Int) < 2 ^ (shift + 149).toNat := Int.pow_pos (by decide)
  have value : x.toInt ≠ 0 := fun zero => nonzero (BitVec.eq_of_toInt_eq zero)
  have sign : decide (x.toInt * 2 ^ (shift + 149).toNat < 0) = x.msb := by
    rw [BitVec.msb_eq_toInt]
    refine decide_eq_decide.mpr ⟨fun product => ?_, fun negative => Int.mul_neg_of_neg_of_pos negative scale⟩
    exact Int.not_le.mp fun high => Int.not_lt.mpr (Int.mul_nonneg high (Int.le_of_lt scale)) product
  rw [fpOfInteger_eq, (fpRoundInt_cases ..).1 (Int.mul_ne_zero value (Int.ne_of_gt scale)), sign, Int.natAbs_mul, Int.natAbs_pow]
  rfl

/-- An integer of a word is in the range of the normal numbers (R599). -/
theorem fpOfInteger_in_range (rm : BitVec 2) (x : Word) :
    (fpOfInteger rm x 0).flags.fv = false ∧ (fpOfInteger rm x 0).flags.fu = false := by
  by_cases nonzero : x = 0
  · rw [nonzero, fpOfInteger_of_zero]
    exact ⟨rfl, rfl⟩
  · have low := x.le_toInt
    have high := x.toInt_lt
    have value : x.toInt ≠ 0 := fun zero => nonzero (BitVec.eq_of_toInt_eq zero)
    rw [fpOfInteger_of_nonzero rm 0 nonzero, Bool.eq_false_iff, Bool.eq_false_iff, ne_eq, ne_eq, fpRound_fu,
      fpRound_fv_iff (Nat.two_pow_pos _), show ((0 : Int) + 149).toNat = 149 from rfl,
      show (-149 - (0 : Int)).toNat = 0 from rfl]
    omega

/-- The conversions from an integer. -/
theorem fpOfInteger_table (rm : BitVec 2) (x : Word) (shift : Int) :
    (x = 0 → fpOfInteger rm x shift = fpExact 0) ∧
    (x ≠ 0 → fpOfInteger rm x shift =
      fpRound rm x.msb (x.toInt.natAbs * 2 ^ (shift + 149).toNat) (2 ^ (-149 - shift).toNat)) ∧
    (shift = 0 → (fpOfInteger rm x shift).flags.fv = false ∧ (fpOfInteger rm x shift).flags.fu = false) :=
  ⟨fun zero => zero ▸ fpOfInteger_of_zero rm shift, fpOfInteger_of_nonzero rm shift,
    fun unscaled => unscaled ▸ fpOfInteger_in_range rm x⟩

/-- Settles O58: each form is one of the two conversions, with its own range and scale. -/
theorem conversionResults : Obligations.ConversionResults := by
  unfold Obligations.ConversionResults
  intro s len c a b rm x k toInt ofInt
  have signedRange : -(2 ^ 31) ≤ (2 ^ 31 - 1 : Int) := by decide
  have unsignedRange : 0 ≤ (2 ^ 32 - 1 : Int) := by decide
  exact ⟨⟨_, rfl, fpToInteger_table rm x 0 signedRange⟩, ⟨_, rfl, fpToInteger_table rm x 0 unsignedRange⟩,
    ⟨_, rfl, fpToInteger_table rm x (31 - k) signedRange⟩, ⟨_, rfl, fpOfInteger_table rm x 0⟩,
    ⟨_, rfl, fpOfInteger_table rm x (k - 31)⟩⟩

end Sys2Proof.Machine
end

section
/-!
PROOFS. What every floating-point instruction leaves behind (45 R571, R572, R578, R580): its result in its destination, the
flags in PSW, and which flags one result asserts together.
-/
namespace Sys2Proof.Machine

/-! ### The flags in PSW (R571, R578) -/

/-- The bits of six flags, the lowest first. -/
theorem sixFlags_bits (fs fi fv fz fu fx : Bool) :
    let w : BitVec 6 := BitVec.ofBool fs ++ BitVec.ofBool fi ++ BitVec.ofBool fv ++ BitVec.ofBool fz ++ BitVec.ofBool fu ++
      BitVec.ofBool fx
    w.getLsbD 0 = fx ∧ w.getLsbD 1 = fu ∧ w.getLsbD 2 = fz ∧ w.getLsbD 3 = fv ∧ w.getLsbD 4 = fi ∧ w.getLsbD 5 = fs := by
  revert fs fi fv fz fu fx
  decide

theorem fpFlags_set (psw : Word) (f : FpFlags) : FpFlagsSet psw (fpFlags psw f) f := by
  have flag (k : Nat) (inside : k < 6) : (fpFlags psw f).getLsbD (26 + k) = _ :=
    (getLsbD_setField psw 26 _ (26 + k)).trans <| (if_pos (by omega)).trans <| by
      rw [decide_eq_true (show 26 + k < 32 by omega), Bool.true_and, Nat.add_sub_cancel_left]
  obtain ⟨fx, fu, fz, fv, fi, fs⟩ := sixFlags_bits (f.fi || f.fv || f.fz || f.fu || f.fx) (psw.getLsbD 30 || f.fi)
    (psw.getLsbD 29 || f.fv) (psw.getLsbD 28 || f.fz) (psw.getLsbD 27 || f.fu) (psw.getLsbD 26 || f.fx)
  exact ⟨(flag 5 (by decide)).trans fs, (flag 4 (by decide)).trans fi, (flag 3 (by decide)).trans fv,
    (flag 2 (by decide)).trans fz, (flag 1 (by decide)).trans fu, (flag 0 (by decide)).trans fx,
    extract_setField_other _ _ _ _ _ (.inl (by decide))⟩

theorem getLsbD_updateFlags (psw v : Word) (j : Nat) : (updateFlags psw v).getLsbD j =
    if 24 ≤ j ∧ j < 32 ∧ v.getLsbD (j - 16) = true then v.getLsbD (j - 24) else psw.getLsbD j := by
  rw [updateFlags, getLsbD_setField]
  by_cases field : 24 ≤ j ∧ j < 32
  · obtain ⟨low, high⟩ := field
    have inside : j - 24 < 8 := by omega
    have mask : v.getLsbD (8 + (j - 24)) = v.getLsbD (j - 16) := by rw [show 8 + (j - 24) = j - 16 by omega]
    cases selected : v.getLsbD (j - 16) <;> simp [low, high, pswUsb, inside, mask, selected]
  · rw [if_neg field, if_neg fun ⟨low, high, _⟩ => field ⟨low, high⟩]

/-! ### The end of an instruction (R580) -/

/-- Every instruction that computes a result ends in the common shape. -/
theorem exec_of_fpComputed {i : Instr} {s : State} {c : Fin 16} {r : FpResult} (computed : fpComputed s i = some (c, r)) :
    exec i s = finish s (fpShape i.len c r s) := by
  cases i <;> cases computed <;> rfl

theorem finish_fpShape (len : Len) (c : Fin 16) (r : FpResult) {s : State} (fpu : s.platform.hasFpu = true) :
    finish s (fpShape len c r s) = .next { s with
      d := s.d.set c r.bits, psw := fpFlags s.psw r.flags, pc := s.pc + lenBytes len, completed := true } := by
  rw [fpShape, fpu]
  rfl

theorem finish_fpShape_uopc (len : Len) (c : Fin 16) (r : FpResult) {s : State} (noFpu : s.platform.hasFpu = false) :
    finish s (fpShape len c r s) = .next (enterTrap 2 2 s.pc s) := by
  rw [fpShape, noFpu]
  rfl

theorem exec_updfl (len : Len) (a : DReg) {s : State} (fpu : s.platform.hasFpu = true) :
    exec (.updfl len a) s = .next { s with
      psw := updateFlags s.psw (s.dr a), pc := s.pc + lenBytes len, completed := true } := by
  simp only [exec, execUpdfl, fpu]
  rfl

theorem exec_updfl_uopc (len : Len) (a : DReg) {s : State} (noFpu : s.platform.hasFpu = false) :
    exec (.updfl len a) s = .next (enterTrap 2 2 s.pc s) := by
  simp only [exec, execUpdfl, noFpu]
  rfl

/-- Settles O52: the common end of every instruction that computes a result, and UPDFL's. -/
theorem floatingPointCompletes : Obligations.FloatingPointCompletes := by
  unfold Obligations.FloatingPointCompletes
  refine ⟨fun i s c r computed => ?_, fun len a s => ⟨fun fpu => ?_, exec_updfl_uopc len a⟩⟩
  · rw [exec_of_fpComputed computed]
    exact ⟨fun fpu => ⟨_, finish_fpShape i.len c r fpu, fpFlags_set s.psw r.flags⟩, finish_fpShape_uopc i.len c r⟩
  · exact ⟨_, exec_updfl len a fpu, getLsbD_updateFlags s.psw (s.dr a)⟩

/-! ### The flags of one result (R572) -/

/-- One exception among FI and FX alone, asserted or not, is consistent; so is FZ, and FV or FU with FX. -/
theorem consistent_fi (fi : Bool) : FpFlags.Consistent { FpFlags.none with fi := fi } := by
  revert fi
  unfold FpFlags.Consistent
  decide

theorem consistent_fx (fx : Bool) : FpFlags.Consistent { FpFlags.none with fx := fx } := by
  revert fx
  unfold FpFlags.Consistent
  decide

theorem consistent_fz : FpFlags.Consistent { FpFlags.none with fz := true } := by
  unfold FpFlags.Consistent
  decide

theorem consistent_fu : FpFlags.Consistent { FpFlags.none with fu := true, fx := true } := by
  unfold FpFlags.Consistent
  decide

theorem consistent_fv : FpFlags.Consistent { FpFlags.none with fv := true, fx := true } := by
  unfold FpFlags.Consistent
  decide

theorem consistent_fpExact (w : Word) : (fpExact w).flags.Consistent := consistent_fi false
theorem consistent_fpInvalid (w : Word) : (fpInvalid w).flags.Consistent := consistent_fi true

theorem consistent_ite {p : Prop} [Decidable p] {x y : FpResult} (hx : x.flags.Consistent) (hy : y.flags.Consistent) :
    (if p then x else y).flags.Consistent := by
  split
  · exact hx
  · exact hy

theorem consistent_nanCheck (ops : List Word) {r : FpResult} (hr : r.flags.Consistent) : (nanCheck ops r).flags.Consistent :=
  consistent_ite (consistent_fi _) hr

theorem consistent_fpRound (rm : BitVec 2) (neg : Bool) (num den : Nat) : (fpRound rm neg num den).flags.Consistent := by
  by_cases small : num < den * 2 ^ 23
  · rw [fpRound_underflow small]
    exact consistent_fu
  · by_cases exceeds : 0x7F800000 ≤ fpPacked rm neg num den
    · rw [fpRound_overflow small exceeds]
      exact consistent_fv
    · rw [fpRound_normal small exceeds]
      exact consistent_fx _

theorem consistent_fpRoundInt (rm : BitVec 2) (zeroNeg : Bool) (x : Int) (den : Nat) :
    (fpRoundInt rm zeroNeg x den).flags.Consistent := consistent_ite (consistent_fpExact _) (consistent_fpRound ..)

theorem consistent_fpAdd (rm : BitVec 2) (d a : Word) : (fpAdd rm d a).flags.Consistent :=
  consistent_nanCheck _ <| consistent_ite (consistent_fpInvalid _) <| consistent_ite (consistent_fpExact _) <|
    consistent_ite (consistent_fpExact _) (consistent_fpRoundInt ..)

theorem consistent_fpMul (rm : BitVec 2) (a b : Word) : (fpMul rm a b).flags.Consistent :=
  consistent_nanCheck _ <| consistent_ite (consistent_fpInvalid _) <| consistent_ite (consistent_fpExact _) <|
    consistent_ite (consistent_fpExact _) (consistent_fpRoundInt ..)

theorem consistent_fpDiv (rm : BitVec 2) (a b : Word) : (fpDiv rm a b).flags.Consistent :=
  consistent_nanCheck _ <| consistent_ite (consistent_fpInvalid _) <| consistent_ite (consistent_fpExact _) <|
    consistent_ite (consistent_fpExact _) <| consistent_ite consistent_fz <| consistent_ite (consistent_fpExact _)
    (consistent_fpRound ..)

theorem consistent_fpMadd (sub : Bool) (rm : BitVec 2) (d a b : Word) : (fpMadd sub rm d a b).flags.Consistent :=
  consistent_nanCheck _ <| consistent_ite (consistent_fpInvalid _) <|
    consistent_ite (consistent_ite (consistent_fpInvalid _) (consistent_fpExact _)) <|
    consistent_ite (consistent_fpExact _) (consistent_fpRoundInt ..)

theorem consistent_fpQseed (a : Word) : (fpQseed a).flags.Consistent :=
  consistent_nanCheck _ <| consistent_ite (consistent_fpExact _) <| consistent_ite (consistent_fpInvalid _) <|
    consistent_ite (consistent_fpExact _) (consistent_fpExact _)

theorem consistent_fpCmp (a b : Word) : (fpCmp a b).flags.Consistent := consistent_fi _

theorem consistent_toInteger (rm : BitVec 2) (neg : Bool) (num den : Nat) (lo hi : Int) :
    (toInteger rm neg num den lo hi).flags.Consistent :=
  consistent_ite (consistent_fpInvalid _) <| consistent_ite (consistent_fpInvalid _) (consistent_fx _)

theorem consistent_fpToInteger (rm : BitVec 2) (a : Word) (shift lo hi : Int) :
    (fpToInteger rm a shift lo hi).flags.Consistent :=
  consistent_ite (consistent_fpInvalid _) <| consistent_ite (consistent_fpInvalid _) <|
    consistent_ite (consistent_toInteger ..) (consistent_toInteger ..)

theorem consistent_fpOfInteger (rm : BitVec 2) (a : Word) (shift : Int) : (fpOfInteger rm a shift).flags.Consistent :=
  consistent_ite (consistent_fpRoundInt ..) (consistent_fpRoundInt ..)

theorem fpComputed_consistent {i : Instr} {s : State} {c : Fin 16} {r : FpResult} (computed : fpComputed s i = some (c, r)) :
    r.flags.Consistent := by
  cases i <;> cases computed
  case addF => exact consistent_fpAdd ..
  case subF => exact consistent_fpAdd ..
  case mulF => exact consistent_fpMul ..
  case divF => exact consistent_fpDiv ..
  case maddF => exact consistent_fpMadd ..
  case msubF => exact consistent_fpMadd ..
  case qseedF => exact consistent_fpQseed ..
  case cmpF => exact consistent_fpCmp ..
  case ftoi => exact consistent_fpToInteger ..
  case ftou => exact consistent_fpToInteger ..
  case ftoq31 => exact consistent_fpToInteger ..
  case itof => exact consistent_fpOfInteger ..
  case q31tof => exact consistent_fpOfInteger ..

/-- Settles O53: the flags of each operation's branches; the rest is how the instruction ends. -/
theorem exceptionFlagsAreConsistent : Obligations.ExceptionFlagsAreConsistent := by
  unfold Obligations.ExceptionFlagsAreConsistent
  intro i s c r computed
  refine ⟨fpComputed_consistent computed, fun fpu => ?_⟩
  rw [exec_of_fpComputed computed]
  exact ⟨_, finish_fpShape i.len c r fpu, dr_setD_same s c r.bits, (fpFlags_set s.psw r.flags).fs⟩

end Sys2Proof.Machine
end

section
/-!
PROOFS. What an instruction outside Supervisor mode cannot change (60 R631): every operation that User mode reaches leaves the
system registers alone, and the operations that write them stand behind a guard that is PRIV there.
-/
namespace Sys2Proof.Machine

/-! ### The operations that leave the system registers alone

An operation whose record updates name no system register needs no rule: `{ h with }` closes it. The rules are for the others. -/

theorem SameSystem.refl (s : State) : SameSystem s s :=
  ⟨rfl, ⟨rfl, rfl, rfl⟩, rfl, rfl, ⟨rfl, rfl, rfl, rfl⟩, ⟨rfl, rfl, rfl, rfl, rfl, rfl⟩, rfl⟩

theorem SameSystem.trans {s t u : State} (h : SameSystem s t) (h' : SameSystem t u) : SameSystem s u := by
  obtain ⟨syscon, ⟨biv, btv, isp⟩, lcx, prot, ⟨con, asi, tlbA, tlbB⟩, ⟨ex, cr, sw, tr, dms, dcx⟩, endinit⟩ := h
  obtain ⟨syscon', ⟨biv', btv', isp'⟩, lcx', prot', ⟨con', asi', tlbA', tlbB'⟩, ⟨ex', cr', sw', tr', dms', dcx'⟩, endinit'⟩ := h'
  exact ⟨syscon'.trans syscon, ⟨biv'.trans biv, btv'.trans btv, isp'.trans isp⟩, lcx'.trans lcx, prot'.trans prot,
    ⟨con'.trans con, asi'.trans asi, tlbA'.trans tlbA, tlbB'.trans tlbB⟩,
    ⟨ex'.trans ex, cr'.trans cr, sw'.trans sw, tr'.trans tr, dms'.trans dms, dcx'.trans dcx⟩, endinit'.trans endinit⟩

/-- No bus access reaches a system register: all it can change is what `eraseBus` forgets. -/
theorem SameSystem.of_eraseBus {s t : State} (h : t.eraseBus = s.eraseBus) : SameSystem s t := by
  have erased : SameSystem s.eraseBus t.eraseBus := h ▸ SameSystem.refl _
  exact { erased with }

theorem sameSystem_physRead (s : State) (pas : List Word) : SameSystem s (physRead s pas).2 :=
  .of_eraseBus (physRead_eraseBus s pas).1

theorem sameSystem_physWrite (s : State) (pas : List Word) (bs : List Byte) : SameSystem s (physWrite s pas bs) :=
  .of_eraseBus (physWrite_eraseBus s pas bs).1

theorem sameSystem_setNode (s : State) (k : Nat) (n : Src) : SameSystem s (setNode s k n) :=
  .of_eraseBus (setNode_eraseBus s k n)

theorem SameSystem.applyUpdate {s t : State} (h : SameSystem s t) (u : Option (Fin 16 × Word)) :
    SameSystem s (Machine.applyUpdate t u) := by
  rw [applyUpdate_eq]
  exact { h with }

theorem SameSystem.putAddr {s t : State} (h : SameSystem s t) (m : Mode) (r : Fin 16) (v : Word) :
    SameSystem s (Machine.putAddr m r v t) := by
  unfold Machine.putAddr
  split
  · split <;> exact { h with }
  · exact { h with }

theorem SameSystem.useStored {s t : State} (h : SameSystem s t) (m : Mode) (r : Fin 16) :
    SameSystem s (Machine.useStored m r t) := by
  unfold Machine.useStored
  split <;> exact { h with }

theorem sameSystem_saved (upper : Bool) (s : State) : SameSystem s (saved upper s) := by constructor <;> simp

theorem sameSystem_restored (upper : Bool) (s : State) : SameSystem s (restored upper s) := by constructor <;> simp

theorem sameSystem_takeFcu (s : State) : SameSystem s (takeFcu s) := by constructor <;> simp

theorem sameSystem_takeTrap (t : Trap) (s : State) : SameSystem s (takeTrap t s) := by constructor <;> simp

theorem sameSystem_breakpointTrap (s : State) : SameSystem s (breakpointTrap s) :=
  { sameSystem_physWrite s (addrs s.dcx 16) (wordsBytes [s.pcxi, s.psw, s.ar 10, s.ar 11]) with }

theorem sameSystem_save {s t : State} {upper : Bool} (h : save upper s = some t) : SameSystem s t := by
  obtain ⟨-, rfl⟩ := (save_eq_some upper s t).mp h
  split
  · rw [dropUpper_eq]
    exact { sameSystem_saved true s with }
  · exact sameSystem_saved false s

/-! ### Meanings confined to the rest of the state -/

/-- A part of a meaning at `s` is confined: what it answers satisfies `P`, and a state that a debug action left has the system
registers of `s`. The traps, FCU entries and stops it may end in carry no state. -/
def Confined {α : Type} (s : State) (P : α → Prop) : Except Stop α → Prop
  | .ok a => P a
  | .error (.debugged t) => SameSystem s t
  | .error (.trap _) | .error .fcu | .error (.fault _) | .error (.refuse _) => True

section confined

variable {α β : Type} {s : State} {P : α → Prop}

theorem Confined.ok {a : α} (h : P a) : Confined s P (.ok a) := h

/-- What a part of a meaning stops with does not depend on what it would have answered. -/
theorem Confined.stop {e : Stop} {Q : β → Prop} (h : Confined s P (.error e : Except Stop α)) :
    Confined s Q (.error e : Except Stop β) := by
  cases e <;> exact h

theorem Confined.bind {Q : β → Prop} {x : Except Stop α} {f : α → Except Stop β} (hx : Confined s P x)
    (hf : ∀ a, P a → Confined s Q (f a)) : Confined s Q (x >>= f) := by
  cases x with
  | ok a => exact hf a hx
  | error e => exact hx.stop

theorem Confined.map {Q : β → Prop} {x : Except Stop α} {f : α → β} (hx : Confined s P x) (hf : ∀ a, P a → Q (f a)) :
    Confined s Q (x.map f) := by
  cases x with
  | ok a => exact hf a hx
  | error e => exact hx.stop

/-- What is confined at a state with the same system registers is confined. -/
theorem Confined.trans {t : State} {r : Res} (h : SameSystem s t) (hr : Confined t (SameSystem t) r) :
    Confined s (SameSystem s) r := by
  match r, hr with
  | .ok u, hr | .error (.debugged u), hr => exact h.trans hr
  | .error (.trap _), _ | .error .fcu, _ | .error (.fault _), _ | .error (.refuse _), _ => exact trivial

end confined

/-- An outcome from `s` with a next state has the system registers of `s` there. -/
def KeepsSystem (s : State) (o : Host.Outcome State Fault Refusal) : Prop := ∀ t, o = .next t → SameSystem s t

/-- The entry of the trap or of FCU that a confined meaning ends in leaves the system registers alone too (60 R670, R672). -/
theorem Confined.finish {s : State} {r : Res} (h : Confined s (SameSystem s) r) : KeepsSystem s (Machine.finish s r) := by
  intro t next
  rcases finish_next next with ⟨u, rfl, rfl⟩ | ⟨p, rfl, rfl⟩ | ⟨rfl, rfl⟩ | ⟨u, rfl, rfl⟩
  · exact { (h : SameSystem s u) with }
  · exact sameSystem_takeTrap p s
  · exact sameSystem_takeFcu s
  · exact { (h : SameSystem s u) with }

section guards

variable (s : State)

theorem confined_raiseIf (b : Bool) (t : Trap) : Confined s (fun _ => True) (raiseIf b t) := by
  cases b <;> exact trivial

theorem confined_stopIf_fault (b : Bool) (f : Fault) : Confined s (fun _ => True) (stopIf b (.fault f)) := by
  cases b <;> exact trivial

theorem confined_stopIf_refuse (b : Bool) (r : Refusal) : Confined s (fun _ => True) (stopIf b (.refuse r)) := by
  cases b <;> exact trivial

theorem confined_stopIf_fcu (b : Bool) : Confined s (fun _ => True) (stopIf b .fcu) := by
  cases b <;> exact trivial

theorem confined_translateAll (ea : Word) (vas : List Word) (x r w : Bool) :
    Confined s (fun _ => True) (translateAll s ea vas x r w) :=
  (confined_raiseIf s _ _).bind fun _ _ => (confined_raiseIf s _ _).bind fun _ _ =>
  (confined_stopIf_fault s _ _).bind fun _ _ => .ok trivial

theorem confined_checkData (m : Mode) (kind : AccessKind) : Confined s (fun _ => True) (checkData s m kind) :=
  (confined_raiseIf s _ _).bind fun _ _ => (confined_raiseIf s _ _).bind fun _ _ => (confined_raiseIf s _ _).bind fun _ _ =>
  (confined_translateAll s _ _ _ _ _).bind fun _ _ => (confined_stopIf_fault s _ _).bind fun _ _ =>
  (confined_raiseIf s _ _).bind fun _ _ => (confined_raiseIf s _ _).bind fun _ _ => (confined_raiseIf s _ _).bind fun _ _ =>
  (confined_stopIf_refuse s _ _).bind fun _ _ => (confined_raiseIf s _ _).bind fun _ _ => .ok trivial

theorem confined_checkCsa (ea : Word) (reads : Bool) : Confined s (fun _ => True) (checkCsa s ea reads) :=
  (confined_raiseIf s _ _).bind fun _ _ => (confined_stopIf_refuse s _ _).bind fun _ _ => confined_raiseIf s _ _

theorem confined_checkCtx (m : Mode) (reads : Bool) : Confined s (fun _ => True) (checkCtx s m reads) :=
  (confined_raiseIf s _ _).bind fun _ _ => (confined_raiseIf s _ _).bind fun _ _ => (confined_raiseIf s _ _).bind fun _ _ =>
  (confined_checkCsa s _ _).bind fun _ _ => .ok trivial

theorem confined_restore (upper : Bool) : Confined s (SameSystem s) (restore upper s) :=
  (confined_raiseIf s _ _).bind fun _ _ => (confined_checkCsa s _ _).bind fun _ _ => .ok (sameSystem_restored upper s)

theorem confined_saveOrFcu (upper : Bool) : Confined s (SameSystem s) (saveOrFcu upper s) := by
  unfold saveOrFcu
  split
  next hs => exact .ok (sameSystem_save hs)
  next => exact trivial

end guards

/-! ### The privileged instructions -/

section user

variable {α : Type} {s : State} (user : isSupervisor s = false) {P : α → Prop} (f : Unit → Except Stop α)
include user

/-- Outside Supervisor mode nothing comes about behind the guard of a privileged instruction (60 R680). -/
theorem confined_supervisorOnly : Confined s P (supervisorOnly s >>= f) := by
  rw [supervisorOnly, user]
  exact trivial

/-- Outside Supervisor mode nothing comes about behind the prologue of an MMU instruction (44 R530). -/
theorem confined_mmuPrologue : Confined s P (mmuPrologue s >>= f) := by
  unfold mmuPrologue
  cases mmuNone s.mmuCon with
  | true => exact trivial
  | false => exact confined_supervisorOnly user f

end user

/-! ### Debug events -/

/-- An action of the debug controller writes DBGSR, a request, or what the breakpoint trap does, and no event register. -/
theorem confined_debugEvent (s : State) (e : DebugEvent) : Confined s (SameSystem s) (debugEvent e s) := by
  have recorded : SameSystem s { s with dbgsr := updateDbgsr s e, breakOuts := s.breakOuts + 1 } :=
    { SameSystem.refl s with }
  unfold debugEvent
  dsimp only
  split
  · exact .ok recorded
  · split
    · exact .ok { recorded with }
    · split
      · split
        · exact trivial
        · exact .ok (recorded.trans (sameSystem_breakpointTrap _))
      · refine .ok ?_
        split
        · exact recorded.trans (sameSystem_setNode _ _ _)
        · exact recorded

/-- An action that lets the instruction go on leaves PSW alone, so the mode as well (61 R742). -/
theorem debugEvent_psw {s t : State} {e : DebugEvent} (goesOn : evtDiverts e = false) (h : debugEvent e s = .ok t) :
    t.psw = s.psw := by
  rw [evtDiverts, Bool.or_eq_false_iff, decide_eq_false_iff_not, decide_eq_false_iff_not] at goesOn
  rw [debugEvent, if_neg goesOn.1, if_neg goesOn.2] at h
  split at h
  · cases h; rfl
  · cases h
    split
    · rw [setNode_eq]
    · rfl

/-- Before its instruction an event leaves the system registers alone, and the mode where the instruction runs (61 R737). -/
theorem confined_eventBefore (s : State) (e : DebugEvent) :
    Confined s (fun t => SameSystem s t ∧ t.psw = s.psw) (eventBefore e s) := by
  unfold eventBefore
  split
  · have acted := confined_debugEvent s e
    cases h : debugEvent e s with
    | error stop =>
      rw [h] at acted
      exact acted.stop
    | ok t =>
      rw [h] at acted
      cases diverts : evtDiverts e with
      | true => exact acted
      | false => exact ⟨acted, debugEvent_psw diverts h⟩
  · exact ⟨SameSystem.refl s, rfl⟩

theorem confined_eventAfter {s t : State} (h : SameSystem s t) (e : DebugEvent) (u : State) :
    Confined s (SameSystem s) (eventAfter e u t) := by
  unfold eventAfter
  split
  · exact (confined_debugEvent t e).trans h
  · exact .ok h

/-- An instruction with a debug event of its own, its body confined in User mode. -/
theorem keepsSystem_withEvent {s : State} {e : DebugEvent} {body : State → Res} (user : isSupervisor s = false)
    (hb : ∀ u, isSupervisor u = false → Confined u (SameSystem u) (body u)) : KeepsSystem s (withEvent e body s) := by
  have before := confined_eventBefore s e
  unfold withEvent
  split
  next stop hs =>
    rw [hs] at before
    exact before.stop.finish
  next u hs =>
    rw [hs] at before
    obtain ⟨same, psw⟩ := before
    have user' : isSupervisor u = false := by rw [isSupervisor, psw]; exact user
    intro t next
    exact same.trans (Confined.finish ((hb u user').bind fun _ h => confined_eventAfter h e u) t next)

/-! ### The shapes of the instructions -/

section shapes

variable {s : State} (len : Len) (m : Mode) (kind : AccessKind) (odd : Bool)

theorem confined_loadShape (global : Bool) {put : List Byte → State → State}
    (hput : ∀ bs t, SameSystem s t → SameSystem s (put bs t)) :
    Confined s (SameSystem s) (loadShape len m kind odd global put s) :=
  (confined_raiseIf s _ _).bind fun _ _ => (confined_raiseIf s _ _).bind fun _ _ => (confined_checkData s _ _).bind fun pas _ =>
  .ok { hput _ _ ((sameSystem_physRead s pas).applyUpdate _) with }

theorem confined_storeShape (bs : List Byte) : Confined s (SameSystem s) (storeShape len m kind odd bs s) :=
  (confined_raiseIf s _ _).bind fun _ _ => (confined_raiseIf s _ _).bind fun _ _ => (confined_checkData s _ _).bind fun pas _ =>
  .ok { (sameSystem_physWrite s pas bs).applyUpdate _ with }

theorem confined_rmwShape {new : List Byte → List Byte} {put : List Byte → State → State}
    (hput : ∀ bs t, SameSystem s t → SameSystem s (put bs t)) :
    Confined s (SameSystem s) (rmwShape len m kind odd new put s) :=
  (confined_raiseIf s _ _).bind fun _ _ => (confined_raiseIf s _ _).bind fun _ _ => (confined_checkData s _ _).bind fun pas _ =>
  .ok { hput _ _ (((sameSystem_physRead s pas).trans (sameSystem_physWrite _ pas _)).applyUpdate _) with }

end shapes

theorem confined_storeCtx (s : State) (len : Len) (m : CtxMode) (upper : Bool) :
    Confined s (SameSystem s) (storeCtx len m upper s) :=
  (confined_checkCtx s _ _).bind fun pas _ => .ok { sameSystem_physWrite s pas _ with }

/-- A return restores the upper context, PSW with it, and moves the pc and ICR: RFE runs in every mode (42 R443, R444). -/
theorem confined_returns (s : State) :
    Confined s (SameSystem s) (returnFromCall s) ∧ Confined s (SameSystem s) (returnFromException s) := by
  constructor <;>
    exact (confined_raiseIf s _ _).bind fun _ _ => (confined_raiseIf s _ _).bind fun _ _ =>
      (confined_raiseIf s _ _).bind fun _ _ => (confined_restore s true).bind fun _ h => .ok { h with }

/-! ### Every instruction -/

/-- Outside Supervisor mode an instruction keeps the system registers: each by what its shape is confined to, those with a debug
event of their own by `keepsSystem_withEvent`, the privileged ones by their guard. -/
theorem exec_keepsSystem {s : State} (user : isSupervisor s = false) (i : Instr) : KeepsSystem s (exec i s) := by
  have same := SameSystem.refl s
  cases i
  case addc | addx | rstv | eq | ne | lt | ge | clo | clz | cls | jl | nop | isync | dsync =>
    refine Confined.finish (.ok ?_)
    exact { same with }
  case cmov =>
    refine Confined.finish (.ok ?_)
    split <;> exact { same with }
  case addF | subF | mulF | divF | maddF | msubF | qseedF | cmpF | ftoi | ftou | ftoq31 | itof | q31tof | updfl | lea | addscA |
      addscAt | trapv | trapsv | enable | disable =>
    exact Confined.finish ((confined_raiseIf s _ _).bind fun _ _ => .ok { same with })
  case extrU len c a f =>
    have put (pos width : Nat) : SameSystem s (if fieldDefined pos width then s.setD c (extractField (s.dr a) pos width)
        else useFree (s.setD c (Config.freeWord s.freeCount 0))) := by
      split <;> exact { same with }
    exact Confined.finish ((confined_raiseIf s _ _).bind fun _ _ => .ok { put _ _ with })
  case ldB | ldBu | ldH | ldHu | ldW | ldD => exact Confined.finish (confined_loadShape _ _ _ _ _ fun _ _ h => { h with })
  case ldA => exact Confined.finish (confined_loadShape _ _ _ _ _ fun _ _ h => h.putAddr _ _ _)
  case ldDa => exact Confined.finish (confined_loadShape _ _ _ _ _ fun _ _ h => (h.putAddr _ _ _).putAddr _ _ _)
  case stB | stH | stW | stD => exact Confined.finish (confined_storeShape _ _ _ _ _)
  case stA => exact Confined.finish ((confined_storeShape _ _ _ _ _).map fun _ h => h.useStored _ _)
  case stDa => exact Confined.finish ((confined_storeShape _ _ _ _ _).map fun _ h => (h.useStored _ _).useStored _ _)
  case ldmst | stT | swapW => exact Confined.finish (confined_rmwShape _ _ _ _ fun _ _ h => { h with })
  case call =>
    exact Confined.finish ((confined_stopIf_fcu s _).bind fun _ _ => (confined_raiseIf s _ _).bind fun _ _ =>
      (confined_saveOrFcu s true).bind fun _ h => .ok { h with })
  case ret => exact Confined.finish (confined_returns s).1
  case rfe => exact Confined.finish (confined_returns s).2
  case svlcx => exact Confined.finish ((confined_saveOrFcu s false).bind fun _ h => .ok { h with })
  case rslcx =>
    exact Confined.finish ((confined_raiseIf s _ _).bind fun _ _ => (confined_raiseIf s _ _).bind fun _ _ =>
      (confined_restore s false).bind fun _ h => .ok { h with })
  case stlcx | stucx => exact Confined.finish (confined_storeCtx s _ _ _)
  case ldlcx | lducx =>
    exact Confined.finish ((confined_checkCtx s _ _).bind fun pas _ => .ok { sameSystem_physRead s pas with })
  case syscall len k => exact Confined.finish (r := .error (.trap (.sys k len))) trivial
  case mfcr len c off =>
    refine keepsSystem_withEvent user fun u _ => .ok ?_
    have := SameSystem.refl u
    split <;> exact { this with }
  case debug len =>
    exact keepsSystem_withEvent (body := fun u => .ok (advance len u)) user fun u _ => .ok { SameSystem.refl u with }
  case mtcr => exact keepsSystem_withEvent user fun u user' => confined_supervisorOnly user' _
  case bisr | rfm => exact Confined.finish (confined_supervisorOnly user _)
  case tlbdemap | tlbflushA | tlbflushB | tlbprobeA | tlbprobeI => exact Confined.finish (confined_mmuPrologue user _)
  case tlbmap => exact Confined.finish ((confined_raiseIf s _ _).bind fun _ _ => confined_mmuPrologue user _)

/-- Settles O59: no instruction's outcome outside Supervisor mode has other system registers, by `exec_keepsSystem`. -/
theorem userModeCannotChangeTheSystem : Obligations.UserModeCannotChangeTheSystem := by
  unfold Obligations.UserModeCannotChangeTheSystem
  intro i s t user next
  exact exec_keepsSystem user i t next

end Sys2Proof.Machine
end

section
/-!
PROOFS. The interrupt control unit (60 R640 to R658): the arbitration over the active nodes, the acknowledge, and the entry of an
interrupt's handler.
-/
namespace Sys2Proof.Machine

/-! ### The arbitration -/

theorem Src.active_iff (n : Src) : n.active = true ↔ n.srr = true ∧ n.sre = true ∧ n.tos = 0 ∧ n.srpn ≠ 0 := by
  simp only [Src.active, Bool.and_eq_true, decide_eq_true_eq, and_assoc]

/-- One round of the arbitration: the number `p` against that of node `k` (60 R647). -/
def contend (s : State) (p : BitVec 8) (k : Nat) : BitVec 8 :=
  match getNode s k with
  | some n => if n.active && p < n.srpn then n.srpn else p
  | none => p

theorem arbitrate_eq (s : State) : arbitrate s = (List.range (nodeCount s)).foldl (contend s) 0 := rfl

/-- A round keeps its number, or takes the greater one of an active node. -/
theorem contend_cases (s : State) (p : BitVec 8) (k : Nat) :
    contend s p k = p ∨
      (p < contend s p k ∧ ∃ n, getNode s k = some n ∧ n.active = true ∧ n.srpn = contend s p k) := by
  unfold contend
  cases hk : getNode s k with
  | none => exact .inl rfl
  | some n =>
    dsimp only
    split
    next wins =>
      rw [Bool.and_eq_true, decide_eq_true_eq] at wins
      exact .inr ⟨wins.2, n, rfl, wins.1, rfl⟩
    next => exact .inl rfl

/-- An active node's number is no greater than that of its round. -/
theorem srpn_le_contend {s : State} {k : Nat} {n : Src} (hk : getNode s k = some n) (active : n.active = true)
    (p : BitVec 8) : n.srpn ≤ contend s p k := by
  simp only [contend, hk, active, Bool.true_and, decide_eq_true_eq]
  split
  next => exact BitVec.le_refl _
  next loses => exact BitVec.not_lt.mp loses

/-- The rounds end with a number no less than the first one and any active node's, and it is the first one or an active
node's. -/
theorem foldl_contend (s : State) (ks : List Nat) (p : BitVec 8) :
    p ≤ ks.foldl (contend s) p ∧
    (∀ k ∈ ks, ∀ n, getNode s k = some n → n.active = true → n.srpn ≤ ks.foldl (contend s) p) ∧
    (ks.foldl (contend s) p = p ∨
      ∃ k n, getNode s k = some n ∧ n.active = true ∧ n.srpn = ks.foldl (contend s) p) := by
  induction ks generalizing p with
  | nil => exact ⟨BitVec.le_refl p, nofun, .inl rfl⟩
  | cons k ks ih =>
    rw [List.foldl_cons]
    obtain ⟨least, rest, found⟩ := ih (contend s p k)
    have round := contend_cases s p k
    refine ⟨?_, fun j mem n hj active => ?_, ?_⟩
    · rcases round with same | ⟨more, -⟩
      · rwa [same] at least ⊢
      · exact BitVec.le_trans (BitVec.le_of_lt more) least
    · rcases List.mem_cons.mp mem with rfl | mem
      · exact BitVec.le_trans (srpn_le_contend hj active p) least
      · exact rest j mem n hj active
    · rcases found with first | found
      · rw [first]
        exact round.imp_right fun ⟨_, n, hk, active, number⟩ => ⟨k, n, hk, active, number⟩
      · exact .inr found

/-- No active node has a greater number than the arbitration finds (60 R647). -/
theorem srpn_le_arbitrate {s : State} {k : Nat} {n : Src} (hk : getNode s k = some n) (active : n.active = true) :
    n.srpn ≤ arbitrate s := by
  obtain ⟨-, most, -⟩ := foldl_contend s (List.range (nodeCount s)) 0
  exact most k (List.mem_range.mpr (getNode_lt hk)) n hk active

/-- A number other than 0 that the arbitration finds is an active node's (60 R647). -/
theorem exists_of_arbitrate {s : State} (found : arbitrate s ≠ 0) :
    ∃ k n, getNode s k = some n ∧ n.active = true ∧ n.srpn = arbitrate s := by
  obtain ⟨-, -, zero | node⟩ := foldl_contend s (List.range (nodeCount s)) 0
  · exact absurd zero found
  · exact node

theorem mem_winners {s : State} {p : BitVec 8} {k : Nat} :
    k ∈ winners s p ↔ ∃ n, getNode s k = some n ∧ n.active = true ∧ n.srpn = p := by
  simp only [winners, List.mem_filter, List.mem_range, Option.any_eq_true, Bool.and_eq_true, decide_eq_true_eq]
  constructor
  · exact fun ⟨_, n, hk, active, number⟩ => ⟨n, hk, active, number⟩
  · exact fun ⟨n, hk, active, number⟩ => ⟨getNode_lt hk, n, hk, active, number⟩

/-! ### The acknowledge -/

/-- A request set or cleared changes no more than a bus access does, and no memory. -/
theorem setSrr_eraseBus (b : Bool) (s : State) (k : Nat) :
    (setSrr b s k).eraseBus = s.eraseBus ∧ (setSrr b s k).mem = s.mem := by
  unfold setSrr
  split
  · exact ⟨setNode_eraseBus s k _, by rw [setNode_eq]⟩
  · exact ⟨rfl, rfl⟩

theorem foldl_setSrr_eraseBus (b : Bool) (ks : List Nat) (s : State) :
    (ks.foldl (setSrr b) s).eraseBus = s.eraseBus ∧ (ks.foldl (setSrr b) s).mem = s.mem := by
  induction ks generalizing s with
  | nil => exact ⟨rfl, rfl⟩
  | cons k ks ih =>
    obtain ⟨rest, mem⟩ := ih (setSrr b s k)
    obtain ⟨first, mem'⟩ := setSrr_eraseBus b s k
    exact ⟨rest.trans first, mem.trans mem'⟩

/-- Requests set or cleared one after the other: the nodes named have the new SRR, the others are as before. -/
theorem getNode_foldl_setSrr (b : Bool) (ks : List Nat) (s : State) (j : Nat) :
    getNode (ks.foldl (setSrr b) s) j =
      if j ∈ ks then (getNode s j).map fun n => { n with srr := b } else getNode s j := by
  induction ks generalizing s with
  | nil => rfl
  | cons k ks ih =>
    have one : getNode (setSrr b s k) j =
        if j = k then (getNode s j).map fun n => { n with srr := b } else getNode s j := by
      cases hk : getNode s k with
      | some n =>
        rw [getNode_setSrr b hk]
        split
        next e => rw [e, hk]; rfl
        next => rfl
      | none =>
        simp only [setSrr, hk]
        split
        next e => rw [e, hk]; rfl
        next => rfl
    rw [List.foldl_cons, ih, one]
    by_cases first : j = k <;> by_cases later : j ∈ ks <;> simp [first, later, Function.comp_def]

/-- The acknowledge changes no more than a bus access does, and no memory. -/
theorem acknowledge_eraseBus (s : State) (p : BitVec 8) :
    (acknowledge s p).eraseBus = s.eraseBus ∧ (acknowledge s p).mem = s.mem := by
  unfold acknowledge
  dsimp only
  split
  · exact foldl_setSrr_eraseBus false _ s
  · exact foldl_setSrr_eraseBus false _ s

section acknowledge

variable (s : State) (p : BitVec 8)

@[simp] theorem acknowledge_d : (acknowledge s p).d = s.d := (congrArg State.d (acknowledge_eraseBus s p).1 :)
@[simp] theorem acknowledge_a : (acknowledge s p).a = s.a := (congrArg State.a (acknowledge_eraseBus s p).1 :)
@[simp] theorem acknowledge_pc : (acknowledge s p).pc = s.pc := (congrArg State.pc (acknowledge_eraseBus s p).1 :)
@[simp] theorem acknowledge_psw : (acknowledge s p).psw = s.psw := (congrArg State.psw (acknowledge_eraseBus s p).1 :)
@[simp] theorem acknowledge_icr : (acknowledge s p).icr = s.icr := (congrArg State.icr (acknowledge_eraseBus s p).1 :)
@[simp] theorem acknowledge_pcxi : (acknowledge s p).pcxi = s.pcxi := (congrArg State.pcxi (acknowledge_eraseBus s p).1 :)
@[simp] theorem acknowledge_fcx : (acknowledge s p).fcx = s.fcx := (congrArg State.fcx (acknowledge_eraseBus s p).1 :)
@[simp] theorem acknowledge_mem : (acknowledge s p).mem = s.mem := (acknowledge_eraseBus s p).2
@[simp] theorem acknowledge_dr (r : Fin 16) : (acknowledge s p).dr r = s.dr r := by simp only [State.dr, acknowledge_d]
@[simp] theorem acknowledge_ar (r : Fin 16) : (acknowledge s p).ar r = s.ar r := by simp only [State.ar, acknowledge_a]

end acknowledge

/-- The acknowledge clears SRR of some of the winners, of one at least where there is one, and of no other node (60 R649,
log 55). -/
theorem getNode_acknowledge (s : State) (p : BitVec 8) :
    ∃ ks ⊆ winners s p, (winners s p ≠ [] → ks ≠ []) ∧ ∀ j, getNode (acknowledge s p) j =
      if j ∈ ks then (getNode s j).map fun n => { n with srr := false } else getNode s j := by
  unfold acknowledge
  dsimp only
  split
  · exact ⟨winners s p, List.Subset.refl _, id, getNode_foldl_setSrr false _ s⟩
  · refine ⟨_, ?_, ?_, getNode_foldl_setSrr false _ s⟩
    · split
      · exact List.Subset.refl _
      · exact List.filter_sublist.subset
    · split
      · exact id
      next some_chosen => exact fun _ none_chosen => some_chosen (List.isEmpty_iff.mpr none_chosen)

/-! ### The entry -/

/-- The first state of an interrupt's handler before the acknowledge: as after a trap that returns to the pc, but for D[15],
ICR.CCPN, ICR.PIPN and the vector (60 R655, R670). -/
def State.interrupted (s : State) : State :=
  { enterTrap 0 0 s.pc s with
    d := (dropUpper (saved true s)).d
    icr := setField (setField (setBit s.icr 8 false) 0 (icrPipn s.icr)) 16 (0 : BitVec 8)
    pc := interruptVector s (icrPipn s.icr) }

theorem takeInterrupt_of_save {s : State} (saves : saveFails s = false) :
    takeInterrupt s = acknowledge s.interrupted (icrPipn s.icr) := by
  rw [takeInterrupt, (save_eq_some true s _).mpr ⟨saves, rfl⟩, State.interrupted, enterTrap_of_save 0 0 s.pc saves]
  simp only [if_true, dropUpper_psw, saved_psw, dropUpper_icr, saved_icr]

/-- A save that cannot be completed takes FCU in place of the interrupt, and acknowledges nothing (60 R672). -/
theorem takeInterrupt_of_saveFails {s : State} (fails : saveFails s = true) : takeInterrupt s = takeFcu s := by
  rw [takeInterrupt, (save_eq_none true s).mpr fails]

/-- An entry whose save goes to memory leaves the nodes alone. -/
theorem interrupted_nodes {s : State} (saves : saveFails s = false)
    (area : AllMemory s (addrs (csaEa (ctxPtr s.fcx)) 64)) :
    getNode s.interrupted = getNode s ∧ ∀ p, winners s.interrupted p = winners s p := by
  rw [State.interrupted, enterTrap_of_save 0 0 s.pc saves, dropUpper_eq, saved_eq true area]
  exact ⟨rfl, fun _ => rfl⟩

/-- ICR at the first instruction of an interrupt's handler: the priority taken, interrupts off, nothing pending (60 R655). -/
theorem interrupted_icr (s : State) :
    icrCcpn s.interrupted.icr = icrPipn s.icr ∧ icrIe s.interrupted.icr = false ∧ icrPipn s.interrupted.icr = 0 := by
  refine ⟨?_, ?_, extract_setField_same _ 16 0 (by decide)⟩
  · exact (extract_setField_other _ 16 0 0 8 (.inl (by decide))).trans (extract_setField_same _ 0 _ (by decide))
  · rw [icrIe, State.interrupted, getLsbD_setField, if_neg (by decide), getLsbD_setField, if_neg (by decide),
      getLsbD_setBit_false]
    exact Bool.and_false _

/-- The registers of an interrupt's handler: the return address, the stack pointer, and those it shares with the interrupted
program (60 R655). -/
theorem interrupted_registers {s : State} (saves : saveFails s = false) :
    s.interrupted.ar 11 = s.pc ∧ s.interrupted.ar 10 = (if pswIs s.psw then s.ar 10 else s.isp) ∧
      ∀ r : Fin 16, (r.val < 8 → s.interrupted.dr r = s.dr r) ∧ (r.val < 10 → s.interrupted.ar r = s.ar r) := by
  have ar (r : Fin 16) : s.interrupted.ar r = (enterTrap 0 0 s.pc s).ar r := by rw [State.ar, State.interrupted, State.ar]
  obtain ⟨a11, -, -⟩ := enterTrap_handler 0 0 s.pc saves
  obtain ⟨a10, lower⟩ := enterTrap_registers 0 0 s.pc saves
  refine ⟨(ar 11).trans a11, (ar 10).trans a10, fun r => ⟨fun hr => ?_, fun hr => (ar r).trans ((lower r).2 hr)⟩⟩
  exact (dropUpper_dr _ r hr).trans (by rw [State.dr, saved_d, State.dr])

/-- PSW of an interrupt's handler, and what the save left (60 R655). -/
theorem interrupted_context {s : State} (saves : saveFails s = false) :
    s.interrupted.psw = entryPsw s.psw ∧ s.interrupted.pcxi = (saved true s).pcxi ∧
      s.interrupted.fcx = (saved true s).fcx ∧ s.interrupted.mem = (saved true s).mem := by
  rw [State.interrupted, enterTrap_of_save 0 0 s.pc saves]
  exact ⟨rfl, dropUpper_pcxi _, dropUpper_fcx _, dropUpper_mem _⟩

/-- The requests after an interrupt whose save goes to memory: SRR of a winner is cleared, and no other node changes (60
R649). -/
theorem takeInterrupt_nodes {s : State} (saves : saveFails s = false) (area : AllMemory s (addrs (csaEa (ctxPtr s.fcx)) 64)) :
    let cleared := fun (k : Nat) => ∃ n, getNode s k = some n ∧ getNode (takeInterrupt s) k = some { n with srr := false }
    (winners s (icrPipn s.icr) ≠ [] → ∃ k ∈ winners s (icrPipn s.icr), cleared k) ∧
      ∀ j, getNode (takeInterrupt s) j = getNode s j ∨ (j ∈ winners s (icrPipn s.icr) ∧ cleared j) := by
  obtain ⟨nodes, winners_eq⟩ := interrupted_nodes saves area
  obtain ⟨ks, subset, nonempty, after⟩ := getNode_acknowledge s.interrupted (icrPipn s.icr)
  rw [winners_eq] at subset nonempty
  rw [nodes, ← takeInterrupt_of_save saves] at after
  have cleared {k : Nat} (chosen : k ∈ ks) :
      ∃ n, getNode s k = some n ∧ getNode (takeInterrupt s) k = some { n with srr := false } := by
    obtain ⟨n, hk, -⟩ := mem_winners.mp (subset chosen)
    exact ⟨n, hk, by rw [after, if_pos chosen, hk]; rfl⟩
  refine ⟨fun some_winner => ?_, fun j => ?_⟩
  · obtain ⟨k, chosen⟩ := List.exists_mem_of_ne_nil ks (nonempty some_winner)
    exact ⟨k, subset chosen, cleared chosen⟩
  · by_cases chosen : j ∈ ks
    · exact .inr ⟨subset chosen, cleared chosen⟩
    · exact .inl (by rw [after, if_neg chosen])

/-- Settles O38: the arbitration by `foldl_contend`, the handler by `State.interrupted`, the requests by
`getNode_acknowledge`. -/
theorem interruptEntry : Obligations.InterruptEntry := by
  unfold Obligations.InterruptEntry
  intro s
  refine ⟨fun k n hk srr sre tos number => ?_, fun found => ?_, fun k => ?_, takeInterrupt_of_saveFails,
    fun saves area some_winner => ?_⟩
  · exact srpn_le_arbitrate hk ((Src.active_iff n).mpr ⟨srr, sre, tos, number⟩)
  · obtain ⟨k, n, hk, active, number⟩ := exists_of_arbitrate found
    obtain ⟨srr, sre, tos, -⟩ := (Src.active_iff n).mp active
    exact ⟨k, n, hk, srr, sre, tos, number⟩
  · simp only [mem_winners, Src.active_iff, and_assoc]
  · obtain ⟨a11, a10, lower⟩ := interrupted_registers saves
    obtain ⟨psw, pcxi, fcx, mem⟩ := interrupted_context saves
    obtain ⟨ccpn, ie, pipn⟩ := interrupted_icr s
    obtain ⟨acknowledged, others⟩ := takeInterrupt_nodes saves area
    have acknowledged := acknowledged some_winner
    simp only [takeInterrupt_of_save saves, acknowledge_ar, acknowledge_dr, acknowledge_pc, acknowledge_icr, acknowledge_psw,
      acknowledge_pcxi, acknowledge_fcx, acknowledge_mem] at acknowledged others ⊢
    exact ⟨a11, rfl, a10, ccpn, ie, pipn, psw, pcxi, fcx, mem, lower, acknowledged, others⟩

end Sys2Proof.Machine
end

section
/-!
PROOFS. A boundary of the core (60 R720, R721, 61 R735, R744): what a halted core does, what is taken in place of an
instruction, and the instruction that a quiet boundary starts.
-/
namespace Sys2Proof.Machine

/-! ### What is taken in place of an instruction -/

/-- A halted core does nothing at a boundary beyond its events and the arbitration (61 R744). -/
theorem step_of_halted {s : State} (halted : dbgHalted (sampled s).dbgsr = true) : step s = .next (sampled s) :=
  if_pos halted

/-- A running core without events goes on to the pending exceptions: Break-In is an event (60 R721). -/
theorem step_of_running {s : State} (quiet : eventsNow s = []) (running : dbgHalted s.dbgsr = false) :
    step s = afterBreakIn s.atBoundary := by
  have running' : dbgHalted s.atBoundary.dbgsr = false := running
  have no_break_in : breakInDue s s.atBoundary = false := by rw [breakInDue, quiet]; rfl
  rw [step, boundary, sampled_of_no_events quiet, running', no_break_in]
  rfl

section pending

variable {s : State}

theorem afterBreakIn_nmi (nmi : s.nmiPending = true) :
    afterBreakIn s = .next (enterTrap 7 0 s.pc { s with nmiPending := false }) := if_pos nmi

theorem afterBreakIn_dae (no_nmi : s.nmiPending = false) (dae : s.daePending = true) :
    afterBreakIn s = .next (enterTrap 4 3 s.pc { s with daePending := false }) := by
  rw [afterBreakIn, no_nmi, dae]
  rfl

theorem afterBreakIn_fcd (no_nmi : s.nmiPending = false) (no_dae : s.daePending = false) (fcd : s.fcdPending = true) :
    afterBreakIn s = .next (enterTrap 3 1 s.pc { s with fcdPending := false, syscon := setBit s.syscon 0 true }) := by
  rw [afterBreakIn, no_nmi, no_dae, fcd]
  rfl

theorem afterBreakIn_interrupt (no_nmi : s.nmiPending = false) (no_dae : s.daePending = false)
    (no_fcd : s.fcdPending = false) (ready : interruptReady s = true) : afterBreakIn s = .next (takeInterrupt s) := by
  rw [afterBreakIn, no_nmi, no_dae, no_fcd, ready]
  rfl

end pending

/-- Settles O7: each pending exception by its own rule at the sampled state. -/
theorem pendingEventsAreTakenInOrder : Obligations.PendingEventsAreTakenInOrder := by
  unfold Obligations.PendingEventsAreTakenInOrder
  refine ⟨fun s => step_of_halted, fun s quiet running => ?_⟩
  rw [step_of_running quiet running]
  exact ⟨afterBreakIn_nmi (s := s.atBoundary), afterBreakIn_dae (s := s.atBoundary), afterBreakIn_fcd (s := s.atBoundary),
    afterBreakIn_interrupt (s := s.atBoundary)⟩

/-! ### The instruction of a quiet boundary -/

/-- Without a trigger after it, the outcome of an instruction stands (61 R736 to R738). -/
theorem afterTriggers_of_no_trigger {s : State} {i : Instr} (none_after : firstAfter s (triggerAccesses s i) = none)
    (o : Host.Outcome State Fault Refusal) : afterTriggers s (some i) o = o := by
  cases o with
  | next t =>
    simp only [afterTriggers, Option.map_some, Option.getD_some, none_after]
    split <;> rfl
  | fault | refused => rfl

theorem fetchedInstr_of_decode {bs rest : List Byte} {i : Instr} (decoded : decode bs = .ok (i, rest)) :
    fetchedInstr (.ok bs) = some i := by
  simp only [fetchedInstr, decodeFetched, decoded]

/-- Settles O4: no trigger before (`executeOne_of_no_trigger`), the decoded instruction, no trigger after. -/
theorem stepRunsTheDecodedInstruction : Obligations.StepRunsTheDecodedInstruction := by
  unfold Obligations.StepRunsTheDecodedInstruction
  refine ⟨fun s i bs rest quiet fetched decoded no_trigger => ?_, fun s i off => ?_⟩
  · obtain ⟨none_before, none_after⟩ := no_trigger
    have instr := fetchedInstr_of_decode decoded
    rw [step_of_quiet quiet, executeOne_of_no_trigger (t := s.atInstruction) rfl fetched (instr ▸ none_before), instr,
      afterTriggers_of_no_trigger none_after, runFetched_of_decode decoded]
  · have started : s.atInstruction = s.atBoundary := spendAsi_of_off off
    exact ⟨started, started ▸ ⟨.inr (firstBefore_of_off off), firstAfter_of_off off _⟩⟩

end Sys2Proof.Machine
end

section
/-!
PROOFS. The debug events (61_debug R732 to R742): what each action does, the events of DEBUG, MFCR and MTCR around their
instruction, and Break-In at its boundary.
-/
namespace Sys2Proof.Machine

/-! ### The actions -/

/-- DBGSR of a halt (61 R744). -/
theorem setBit_halt (w : Word) : setBit w 1 true = w ||| 2 := by
  apply BitVec.eq_of_getLsbD_eq
  intro j hj
  have mask : ∀ j < 32, (2 : Word).getLsbD j = decide (j = 1) := by decide
  rw [getLsbD_setBit, BitVec.getLsbD_or, mask j hj]
  by_cases h : j = 1 <;> simp [h]

/-- CPU_SBSRCk is node 4 + k, where the implementation has it (11 R103). -/
theorem getNode_sbSrc (s : State) {k : Nat} (low : k < 4) :
    getNode s (4 + k) = if k < s.platform.nSwBreakpoints then some s.sbSrc[k] else none := by
  simp only [getNode, Nat.add_sub_cancel_left]
  rw [dif_neg (by omega), dif_pos low]

/-- A change of CPU_SBSRCk changes that register alone (11 R103). -/
theorem setNode_sbSrc {s : State} {k : Nat} {n : Src} (low : k < 4) (node : getNode s (4 + k) = some n) (m : Src) :
    setNode s (4 + k) m = { s with sbSrc := s.sbSrc.set k m } := by
  have there : k < s.platform.nSwBreakpoints := by
    rw [getNode_sbSrc s low] at node
    exact (Option.ite_none_right_eq_some.mp node).1
  simp only [setNode, Nat.add_sub_cancel_left]
  rw [dif_neg (by omega), dif_pos low, if_pos there]

section actions

variable {e : DebugEvent} {s : State}

/-- A service request action names one of CPU_SBSRC0 to CPU_SBSRC3 (11 R96). -/
theorem evta_request_lt {k : Nat} (action : (evtEvta e.reg).toNat = 4 + k) : k < 4 := by
  have := (evtEvta e.reg).isLt
  omega

/-- The implemented actions: none but Break-Out, a halt, a breakpoint trap, or the request of a node that is there (11 R96, 61
R742). -/
theorem evtEnabled_cases (enabled : evtEnabled s e.reg = true) :
    evtEvta e.reg = 1 ∨ evtEvta e.reg = 2 ∨ evtEvta e.reg = 3 ∨
      ∃ k n, (evtEvta e.reg).toNat = 4 + k ∧ getNode s (4 + k) = some n := by
  simp only [evtEnabled, Bool.and_eq_true, Bool.or_eq_true, decide_eq_true_eq, ne_eq] at enabled
  obtain ⟨some_action, implemented⟩ := enabled
  by_cases low : (evtEvta e.reg).toNat < 4
  · have : ∀ a : BitVec 3, a ≠ 0 → a.toNat < 4 → a = 1 ∨ a = 2 ∨ a = 3 := by decide
    rcases this _ some_action low with one | halt | trap
    · exact .inl one
    · exact .inr (.inl halt)
    · exact .inr (.inr (.inl trap))
  · obtain ⟨k, action⟩ := Nat.exists_eq_add_of_le (Nat.not_lt.mp low)
    have there : k < s.platform.nSwBreakpoints := by omega
    have k4 := evta_request_lt action
    exact .inr (.inr (.inr ⟨k, s.sbSrc[k], action, by rw [getNode_sbSrc s k4, if_pos there]⟩))

/-- A service request is none of the first actions. -/
theorem evta_ne_of_request {k : Nat} {a : BitVec 3} (action : (evtEvta e.reg).toNat = 4 + k) (first : a.toNat < 4) :
    evtEvta e.reg ≠ a := by
  rintro rfl
  omega

theorem evtEnabled_of_first {a : BitVec 3} (action : evtEvta e.reg = a) (some_action : a ≠ 0) (first : a.toNat < 4) :
    evtEnabled s e.reg = true := by
  rw [evtEnabled, action, decide_eq_true some_action, decide_eq_true first]
  rfl

theorem evtEnabled_of_request {k : Nat} {n : Src} (action : (evtEvta e.reg).toNat = 4 + k)
    (node : getNode s (4 + k) = some n) : evtEnabled s e.reg = true := by
  rw [getNode_sbSrc s (evta_request_lt action)] at node
  obtain ⟨there, -⟩ := Option.ite_none_right_eq_some.mp node
  have some_action : evtEvta e.reg ≠ 0 := evta_ne_of_request action (by decide)
  rw [evtEnabled, action, Nat.add_sub_cancel_left, decide_eq_true some_action, decide_eq_true there, Bool.or_true]
  rfl

/-- EVTA 1: the event is recorded, and nothing else (61 R742). -/
theorem debugEvent_one (action : evtEvta e.reg = 1) : debugEvent e s = .ok (s.recorded e s.pc) := by
  rw [debugEvent, action]
  rfl

/-- EVTA 2: the core is halted (61 R744). -/
theorem debugEvent_halt (action : evtEvta e.reg = 2) :
    debugEvent e s = .ok { s.recorded e s.pc with dbgsr := updateDbgsr s e ||| 2 } := by
  rw [debugEvent, action, ← setBit_halt]
  rfl

/-- A breakpoint trap whose area is not memory is the stop of log 40 (61 R748). -/
theorem debugEvent_areaBad (action : evtEvta e.reg = 3) (bad : ¬ AllMemory s (addrs s.dcx 16)) :
    debugEvent e s = .error (.fault .debugAreaUndefined) := by
  have bad' : debugAreaBad s = true := by simpa [debugAreaBad, AllMemory] using bad
  rw [debugEvent, action, bad']
  rfl

/-- EVTA 4 + k: service is requested on CPU_SBSRCk (61 R750). -/
theorem debugEvent_request {k : Nat} {n : Src} (action : (evtEvta e.reg).toNat = 4 + k)
    (node : getNode s (4 + k) = some n) :
    debugEvent e s = .ok (setNode (s.recorded e s.pc) (4 + k) { n with srr := true }) := by
  have node' : getNode { s with dbgsr := updateDbgsr s e, breakOuts := s.breakOuts + 1 } (4 + k) = some n := node
  rw [debugEvent]
  dsimp only
  rw [if_neg (evta_ne_of_request action (by decide)), if_neg (evta_ne_of_request action (by decide)),
    if_neg (evta_ne_of_request action (by decide)), action, Nat.add_sub_cancel_left, node']
  rfl

/-! ### An event is taken -/

theorem eventTaken_one (action : evtEvta e.reg = 1) : EventTaken e s (s.recorded e s.pc) where
  recorded _ := eventRecorded_updateDbgsr s e
  pulse := rfl
  one _ := rfl
  halt h := absurd (action.symm.trans h) (by decide)
  trap h := absurd (action.symm.trans h) (by decide)
  request _ _ h := absurd action (evta_ne_of_request h (by decide))

theorem eventTaken_halt (action : evtEvta e.reg = 2) :
    EventTaken e s { s.recorded e s.pc with dbgsr := updateDbgsr s e ||| 2 } where
  recorded h := absurd action h
  pulse := rfl
  one h := absurd (action.symm.trans h) (by decide)
  halt _ := ⟨_, eventRecorded_updateDbgsr s e, rfl⟩
  trap h := absurd (action.symm.trans h) (by decide)
  request _ _ h := absurd action (evta_ne_of_request h (by decide))

theorem eventTaken_request {k : Nat} {n : Src} (action : (evtEvta e.reg).toNat = 4 + k)
    (node : getNode s (4 + k) = some n) :
    EventTaken e s (setNode (s.recorded e s.pc) (4 + k) { n with srr := true }) where
  recorded _ := by
    rw [setNode_eq]
    exact eventRecorded_updateDbgsr s e
  pulse := by
    rw [setNode_eq]
    rfl
  one h := absurd h (evta_ne_of_request action (by decide))
  halt h := absurd h (evta_ne_of_request action (by decide))
  trap h := absurd h (evta_ne_of_request action (by decide))
  request j m h node_j := by
    obtain rfl : j = k := by omega
    obtain rfl : m = n := Option.some.inj (node_j.symm.trans node)
    have written := fun i =>
      getNode_setNode (z := s.recorded e s.pc) { m with srr := true } i (Option.isSome_of_eq_some node)
    refine ⟨(written _).trans (if_pos rfl), fun i other => (written i).trans (if_neg other), ?_⟩
    rw [setNode_sbSrc (s := s.recorded e s.pc) (evta_request_lt action) node]
    rfl

/-- The bytes of memory after a breakpoint trap at `t` into memory (61 R748). -/
def monitorMem (t : State) : List Host.Cell := (t.setMemBytes (addrs t.dcx 16) (wordsBytes (monitorWords t))).mem

/-- A breakpoint trap into memory enters the monitor, and does not say whether an instruction completed (61 R748). -/
theorem breakpointTrap_eq_inMonitor {t : State} (area : AllMemory t (addrs t.dcx 16)) :
    breakpointTrap t = t.inMonitor (monitorMem t) t.completed := by
  rw [monitorMem, ← breakpointTrap_memory area,
    ← physWrite_completed t (addrs t.dcx 16) (wordsBytes [t.pcxi, t.psw, t.ar 10, t.ar 11])]
  rfl

/-- The area holds the four words after a breakpoint trap into memory. -/
theorem holdsMonitorWords_breakpointTrap {t : State} (area : AllMemory t (addrs t.dcx 16))
    (wf : Memory.wf t.mem = true) : HoldsMonitorWords t (breakpointTrap t) := by
  obtain ⟨m, entered, holds, -⟩ := breakpointTrap_area area wf t.completed
  exact (entered ▸ holds : HoldsMonitorWords t { breakpointTrap t with completed := t.completed })

/-- A breakpoint trap stores to its area alone. -/
theorem memByte_inMonitor_other {t : State} {pa : Word} (done : Bool) (outside : pa ∉ addrs t.dcx 16) :
    (t.inMonitor (monitorMem t) done).memByte pa = t.memByte pa := by
  rw [monitorMem, memByte_inMonitor]
  exact State.memByte_setMemBytes_other t _ _ pa outside

theorem eventTaken_trap (action : evtEvta e.reg = 3) (area : AllMemory s (addrs s.dcx 16)) :
    EventTaken e s (breakpointTrap (s.recorded e s.pc)) := by
  have area' : AllMemory (s.recorded e s.pc) (addrs (s.recorded e s.pc).dcx 16) := area.recorded e s.pc
  have words (wf : Memory.wf s.mem = true) := (holdsMonitorWords_breakpointTrap area' wf).memWord
  rw [breakpointTrap_eq_inMonitor area'] at words ⊢
  obtain ⟨io, prs, gw, is, low⟩ := inMonitor_psw (s.recorded e s.pc) (monitorMem (s.recorded e s.pc)) s.completed
  exact {
    recorded := fun _ => eventRecorded_updateDbgsr s e
    pulse := rfl
    one := fun h => absurd (action.symm.trans h) (by decide)
    halt := fun h => absurd (action.symm.trans h) (by decide)
    trap := fun _ => ⟨area, ar_inMonitor_eleven _ _ _, rfl, prs, io, gw, is, low,
      extract_setField_other _ _ _ _ _ (.inr (by decide)), setBit_ie_false s.icr, fun r other => ar_inMonitor_other _ _ _ other,
      words, fun pa outside => memByte_inMonitor_other (t := s.recorded e s.pc) _ outside, rfl⟩
    request := fun _ _ h => absurd action (evta_ne_of_request h (by decide)) }

/-- A debug event with an implemented action is taken, or its breakpoint trap has no memory at DCX (61 R742, log 40). -/
theorem debugEvent_cases (enabled : evtEnabled s e.reg = true) :
    (∃ t, debugEvent e s = .ok t ∧ EventTaken e s t) ∨
      (debugEvent e s = .error (.fault .debugAreaUndefined) ∧ evtEvta e.reg = 3 ∧ ¬ AllMemory s (addrs s.dcx 16)) := by
  rcases evtEnabled_cases enabled with one | halt | trap | ⟨k, n, request, node⟩
  · exact .inl ⟨_, debugEvent_one one, eventTaken_one one⟩
  · exact .inl ⟨_, debugEvent_halt halt, eventTaken_halt halt⟩
  · by_cases area : AllMemory s (addrs s.dcx 16)
    · exact .inl ⟨_, debugEvent_breakpoint trap area, eventTaken_trap trap area⟩
    · exact .inr ⟨debugEvent_areaBad trap area, trap, area⟩
  · exact .inl ⟨_, debugEvent_request request node, eventTaken_request request node⟩

theorem eventTaken_of_ok {t : State} (enabled : evtEnabled s e.reg = true) (ok : debugEvent e s = .ok t) :
    EventTaken e s t := by
  rcases debugEvent_cases enabled with ⟨u, ok', taken⟩ | ⟨stopped, -⟩
  · obtain rfl : t = u := Except.ok.inj (ok.symm.trans ok')
    exact taken
  · exact nomatch ok.symm.trans stopped

/-- The action of an event halts, or takes the breakpoint trap (61 R737). -/
def Diverts (e : DebugEvent) : Prop := evtEvta e.reg = 2 ∨ evtEvta e.reg = 3

theorem evtDiverts_iff : evtDiverts e = true ↔ Diverts e := by
  rw [evtDiverts, Bool.or_eq_true, decide_eq_true_eq, decide_eq_true_eq, Diverts]

theorem goesOn_of_one (action : evtEvta e.reg = 1) : ¬ Diverts e := by
  rw [Diverts, action]
  decide

theorem goesOn_of_request {k : Nat} (action : (evtEvta e.reg).toNat = 4 + k) : ¬ Diverts e :=
  not_or.mpr ⟨evta_ne_of_request action (by decide), evta_ne_of_request action (by decide)⟩

/-- An event that neither halts nor traps writes DBGSR, counts its Break-Out pulse and sets a request at most (61 R742). -/
theorem debugEvent_goesOn {t : State} (enabled : evtEnabled s e.reg = true) (ok : debugEvent e s = .ok t)
    (goes_on : ¬ Diverts e) :
    ∃ w b n, t = { s with dbgsr := w, breakOuts := b, sbSrc := n } := by
  have taken := eventTaken_of_ok enabled ok
  rcases evtEnabled_cases enabled with one | halt | trap | ⟨k, n, request, node⟩
  · exact ⟨_, _, _, taken.one one⟩
  · exact absurd (Or.inl halt) goes_on
  · exact absurd (Or.inr trap) goes_on
  · obtain ⟨-, -, written⟩ := taken.request k n request node
    exact ⟨_, _, _, written⟩

end actions

/-! ### The event of an instruction -/

section withEvent

variable {e : DebugEvent} {s t : State} {body : State → Res} (on : dbgDe s.dbgsr = true)
  (enabled : evtEnabled s e.reg = true)

include on enabled

/-- An event before its instruction whose area is bad stops it (61 R748, log 40). -/
theorem withEvent_before_stops {stop : Stop} (before : evtBbm e.reg = true) (stopped : debugEvent e s = .error stop) :
    withEvent e body s = finish s (.error stop) := by
  rw [withEvent, eventBefore_of_bbm on enabled before, stopped]
  rfl

/-- A halt or a trap before its instruction keeps it from running (61 R737). -/
theorem withEvent_before_diverts (before : evtBbm e.reg = true) (ok : debugEvent e s = .ok t)
    (diverts : Diverts e) : withEvent e body s = .next { t with completed := false } := by
  rw [withEvent, eventBefore_of_bbm on enabled before, ok, ok_bind, evtDiverts_iff.mpr diverts]
  rfl

/-- Another action before its instruction lets it run on what the action left (61 R737). -/
theorem withEvent_before_goesOn (before : evtBbm e.reg = true) (ok : debugEvent e s = .ok t)
    (goes_on : ¬ Diverts e) : withEvent e body s = finish t (body t) := by
  have after (u : State) : eventAfter e t u = .ok u := by rw [eventAfter, before, Bool.not_true, Bool.and_false]; rfl
  rw [withEvent, eventBefore_of_bbm on enabled before, ok, ok_bind, Bool.eq_false_iff.mpr (mt evtDiverts_iff.mp goes_on)]
  show finish t (body t >>= eventAfter e t) = _
  rw [funext after]
  cases body t <;> rfl

/-- An event after its instruction acts on what the instruction left, where it completed (61 R737). -/
theorem withEvent_after (after : evtBbm e.reg = false) : withEvent e body s = finish s (body s >>= debugEvent e) := by
  have acts : eventAfter e s = debugEvent e := funext (eventAfter_of_bam on enabled after)
  rw [withEvent, eventBefore_of_bam after, ← acts]

end withEvent

/-! ### DEBUG -/

theorem exec_debug (len : Len) (s : State) :
    exec (.debug len) s = withEvent (swEvent s) (fun u => .ok (advance len u)) s := rfl

/-- Settles O43: each action by its own rule, before the instruction or after it as SWEVT.BBM says. -/
theorem debugInstruction : Obligations.DebugInstruction := by
  unfold Obligations.DebugInstruction
  intro len s on act before next
  refine ⟨_, eventRecorded_updateDbgsr s (swEvent s), fun one => ?_, fun halt => ?_, fun k n request node => ?_⟩
  · have enabled : evtEnabled s (swEvent s).reg = true := evtEnabled_of_first one (by decide) (by decide)
    cases timing : evtBbm s.swevt with
    | true =>
      rw [exec_debug, withEvent_before_goesOn on enabled timing (debugEvent_one one) (goesOn_of_one one)]
      rfl
    | false =>
      rw [exec_debug, withEvent_after on enabled timing, ok_bind, debugEvent_one one]
      rfl
  · have enabled : evtEnabled s (swEvent s).reg = true := evtEnabled_of_first halt (by decide) (by decide)
    by_cases timing : before
    · rw [exec_debug, withEvent_before_diverts on enabled timing (debugEvent_halt halt) (.inl halt), if_pos timing,
        decide_eq_false (not_not_intro timing)]
      rfl
    · rw [exec_debug, withEvent_after on enabled (Bool.eq_false_iff.mpr timing), ok_bind, debugEvent_halt halt,
        if_neg timing, decide_eq_true timing]
      rfl
  · have enabled : evtEnabled s (swEvent s).reg = true := evtEnabled_of_request request node
    have low := evta_request_lt (e := swEvent s) request
    rw [setNode_sbSrc low node]
    cases timing : evtBbm s.swevt with
    | true =>
      rw [exec_debug, withEvent_before_goesOn on enabled timing (debugEvent_request request node) (goesOn_of_request request),
        setNode_sbSrc (s := s.recorded _ _) low node]
      rfl
    | false =>
      rw [exec_debug, withEvent_after on enabled timing, ok_bind, debugEvent_request (s := advance len s) request node,
        setNode_sbSrc (s := (advance len s).recorded _ _) low node]
      rfl

/-! ### MFCR and MTCR -/

/-- The event of an MFCR or MTCR of an offset that is no debug register (61 R733). -/
theorem crEvent_of_not_debug {s : State} {off : BitVec 16} (h : ∀ r, csfrOf s.platform off = some r → r.isDebug = false) :
    crEvent s off = { reg := s.crevt, code := 1 } := by
  have not_debug : (csfrOf s.platform off).any Csfr.isDebug = false := by
    cases reg : csfrOf s.platform off with
    | none => rfl
    | some r => exact h r reg
  rw [crEvent, not_debug]
  rfl

/-- What an instruction does at `u`, its own event aside: PRIV where it is refused, else `effect` where it is defined. -/
structure BodyIs (body : State → Res) (refused defined : Prop) (effect : State → State → Prop) (u : State) : Prop where
  priv : refused → body u = .error (.trap .priv)
  ends : ¬ refused → defined → ∃ v, effect u v ∧ body u = .ok v

section crEvents

variable {e : DebugEvent} {s t : State} {body : State → Res} {refused defined : Prop} {effect : State → State → Prop}
  (on : dbgDe s.dbgsr = true) (enabled : evtEnabled s e.reg = true)

include on enabled

/-- The instruction after an event before it that goes on: it runs on what the event left, PRIV included (61 R737). -/
theorem withEvent_before_of_bodyIs (before : evtBbm e.reg = true) (ok : debugEvent e s = .ok t)
    (goes_on : ¬ Diverts e) (is : BodyIs body refused defined effect t) :
    (refused → withEvent e body s = .next (enterTrap 1 1 s.pc t)) ∧
      (¬ refused → defined → ∃ v, effect t v ∧ withEvent e body s = .next { v with completed := true }) := by
  obtain ⟨w, b, n, rfl⟩ := debugEvent_goesOn enabled ok goes_on
  rw [withEvent_before_goesOn on enabled before ok goes_on]
  refine ⟨fun h => ?_, fun h defined => ?_⟩
  · rw [is.priv h]
    rfl
  · obtain ⟨v, effect, ends⟩ := is.ends h defined
    exact ⟨v, effect, by rw [ends, finish_ok]⟩

/-- The instruction and the event after it: PRIV raises none (61 R737). -/
theorem withEvent_after_of_bodyIs (after : evtBbm e.reg = false) (is : BodyIs body refused defined effect s) :
    (refused → withEvent e body s = .next (enterTrap 1 1 s.pc s)) ∧
      (¬ refused → defined → ∃ v, effect s v ∧
        ∀ t, debugEvent e v = .ok t → withEvent e body s = .next { t with completed := true }) := by
  rw [withEvent_after on enabled after]
  refine ⟨fun h => ?_, fun h defined => ?_⟩
  · rw [is.priv h]
    rfl
  · obtain ⟨v, effect, ends⟩ := is.ends h defined
    exact ⟨v, effect, fun t ok => by rw [ends, ok_bind, ok, finish_ok]⟩

/-- The event of an instruction around it, for an instruction whose own effect an event's action does not change. -/
theorem withEvent_of_bodyIs
    (is : ∀ w b n, BodyIs body refused defined effect { s with dbgsr := w, breakOuts := b, sbSrc := n }) :
    (evtBbm e.reg = true → ∀ stop, debugEvent e s = .error stop → withEvent e body s = .fault .debugAreaUndefined) ∧
    (evtBbm e.reg = true → ∀ t, debugEvent e s = .ok t →
      (Diverts e → withEvent e body s = .next { t with completed := false }) ∧
      (¬ Diverts e → refused → withEvent e body s = .next (enterTrap 1 1 s.pc t)) ∧
      (¬ Diverts e → ¬ refused → defined →
        ∃ v, effect t v ∧ withEvent e body s = .next { v with completed := true })) ∧
    (evtBbm e.reg = false → (refused → withEvent e body s = .next (enterTrap 1 1 s.pc s)) ∧
      (¬ refused → defined → ∃ v, effect s v ∧
        ∀ t, debugEvent e v = .ok t → withEvent e body s = .next { t with completed := true })) := by
  refine ⟨fun before stop stopped => ?_, fun before t ok => ⟨withEvent_before_diverts on enabled before ok, ?_⟩,
    fun after => withEvent_after_of_bodyIs on enabled after (is s.dbgsr s.breakOuts s.sbSrc)⟩
  · rcases debugEvent_cases enabled with ⟨t, ok, -⟩ | ⟨stopped', -⟩
    · exact nomatch stopped.symm.trans ok
    · rw [withEvent_before_stops on enabled before stopped', finish_fault]
  · by_cases diverts : Diverts e
    · exact ⟨fun goes_on => absurd diverts goes_on, fun goes_on => absurd diverts goes_on⟩
    · obtain ⟨w, b, n, rfl⟩ := debugEvent_goesOn enabled ok diverts
      obtain ⟨priv, ends⟩ := withEvent_before_of_bodyIs on enabled before ok diverts (is w b n)
      exact ⟨fun _ => priv, fun _ => ends⟩

end crEvents

/-- MFCR, its event aside (43 R490). -/
def mfcrBody (len : Len) (c : DReg) (off : BitVec 16) (u : State) : Res :=
  .ok (advance len (if (csfrOf u.platform off).any (csfrFree u) then useFree (u.setD c (mfcrValue u off))
    else u.setD c (mfcrValue u off)))

theorem exec_mfcr_eq (len : Len) (c : DReg) (off : BitVec 16) (s : State) :
    exec (.mfcr len c off) s = withEvent (crEvent s off) (mfcrBody len c off) s := rfl

/-- MFCR ends in the value of its offset; a free value may be used up (43 R490, log 41). -/
theorem mfcrBody_ends (len : Len) (c : DReg) (off : BitVec 16) (u : State) : ∃ v : State,
    v = { u with d := u.d.set c (mfcrValue u off), pc := u.pc + lenBytes len, freeCount := v.freeCount } ∧
      mfcrBody len c off u = .ok v := by
  refine ⟨_, ?_, rfl⟩
  split <;> rfl

/-- MTCR, its event aside (43 R491). -/
def mtcrBody (len : Len) (off : BitVec 16) (a : DReg) (u : State) : Res := do
  supervisorOnly u
  stopIf (mmuSwitchBad u off (u.dr a)) (.fault .mmuSwitchUndefined)
  .ok (advance len (mtcrEffect u off (u.dr a)))

theorem exec_mtcr_eq (len : Len) (off : BitVec 16) (a : DReg) (s : State) :
    exec (.mtcr len off a) s = withEvent (crEvent s off) (mtcrBody len off a) s := rfl

theorem mtcrBody_priv (len : Len) (off : BitVec 16) (a : DReg) {u : State} (user : isSupervisor u = false) :
    mtcrBody len off a u = .error (.trap .priv) := by
  rw [mtcrBody, supervisorOnly, user]
  rfl

theorem mtcrEffect_pc (s : State) (off : BitVec 16) (v : Word) : (mtcrEffect s off v).pc = s.pc := by
  unfold mtcrEffect
  split
  · exact csfrWrite_pc s _ v
  · rfl

theorem mtcrBody_ends (len : Len) {off : BitVec 16} {a : DReg} {u : State} (supervisor : isSupervisor u = true)
    (defined : mmuSwitchBad u off (u.dr a) = false) :
    mtcrBody len off a u = .ok { mtcrEffect u off (u.dr a) with pc := u.pc + lenBytes len } := by
  rw [mtcrBody, supervisorOnly_of_supervisor supervisor, defined, ok_bind, stopIf_false, ok_bind, advance, mtcrEffect_pc]

/-! ### Break-In -/

/-- Break-In alone changes nothing at its boundary before its event (60 R721). -/
theorem sampled_of_breakIn {s : State} (now : eventsNow s = [.breakIn]) : sampled s = s.atBoundary := by
  unfold sampled applyInputs State.atBoundary
  rw [now]
  rfl

/-- An enabled Break-In of a running core is taken before the pending exceptions (60 R721, 61 R732). -/
theorem step_of_breakIn {s t : State} (now : eventsNow s = [.breakIn]) (running : dbgHalted s.dbgsr = false)
    (on : dbgDe s.dbgsr = true) (enabled : evtEnabled s s.exevt = true)
    (ok : debugEvent { reg := s.exevt, code := 0 } s.atBoundary = .ok t) :
    step s = if evtDiverts (exEvent s.atBoundary) then .next t else afterBreakIn t := by
  have running' : dbgHalted s.atBoundary.dbgsr = false := running
  have due : breakInDue s s.atBoundary = true := by
    have on' : dbgDe s.atBoundary.dbgsr = true := on
    have enabled' : evtEnabled s.atBoundary s.atBoundary.exevt = true := enabled
    rw [breakInDue, now, on', enabled']
    rfl
  have ok' : debugEvent (exEvent s.atBoundary) s.atBoundary = .ok t := ok
  rw [step, boundary, sampled_of_breakIn now, running', due, ok']
  rfl

/-- A boundary with nothing pending goes on to its instruction (60 R721). -/
theorem afterBreakIn_none {s : State} (no_nmi : s.nmiPending = false) (no_dae : s.daePending = false)
    (no_fcd : s.fcdPending = false) (not_ready : interruptReady s = false) : afterBreakIn s = executeOne s := by
  rw [afterBreakIn, no_nmi, no_dae, no_fcd, not_ready]
  rfl

/-- Without a trigger around it the decoded instruction is all of the step (61 R735 to R738). -/
theorem executeOne_of_decode {s : State} {i : Instr} {bs rest : List Byte} (fetched : fetch (spendAsi s) = .ok bs)
    (decoded : decode bs = .ok (i, rest)) (no_trigger : NoTrigger (spendAsi s) i) :
    executeOne s = exec i (spendAsi s) := by
  obtain ⟨none_before, none_after⟩ := no_trigger
  have instr := fetchedInstr_of_decode decoded
  rw [executeOne_of_no_trigger rfl fetched (instr ▸ none_before), instr, afterTriggers_of_no_trigger none_after,
    runFetched_of_decode decoded]

/-- Settles O44: any event by `debugEvent_cases`, those of MFCR and MTCR by `withEvent_of_bodyIs`, Break-In by
`step_of_breakIn`. -/
theorem otherDebugEvents : Obligations.OtherDebugEvents := by
  unfold Obligations.OtherDebugEvents
  refine ⟨fun e s enabled => ⟨fun t => eventTaken_of_ok enabled, fun stop stopped => ?_, debugEvent_areaBad⟩, ?_, ?_⟩
  · rcases debugEvent_cases enabled with ⟨t, ok, -⟩ | ⟨stopped', trap, bad⟩
    · exact nomatch stopped.symm.trans ok
    · exact ⟨Except.error.inj (stopped.symm.trans stopped'), trap, bad⟩
  · intro i len c off s instr on enabled not_debug e halts effect refused
    have event : crEvent s off = e := crEvent_of_not_debug not_debug
    rcases instr with rfl | rfl
    · rw [exec_mfcr_eq, event]
      exact withEvent_of_bodyIs (e := e) on enabled fun w b n =>
        ⟨fun ⟨_, is_mtcr⟩ => (nomatch is_mtcr), fun _ _ => mfcrBody_ends len c off _⟩
    · rw [exec_mtcr_eq, event]
      refine withEvent_of_bodyIs (e := e) on enabled fun w b n =>
        ⟨fun ⟨user, _⟩ => mtcrBody_priv len off c user, fun h defined => ?_⟩
      have supervisor : isSupervisor s = true := eq_true_of_ne_false fun user => h ⟨user, rfl⟩
      exact ⟨_, ⟨supervisor, defined rfl, rfl⟩, mtcrBody_ends len supervisor (defined rfl)⟩
  · intro s t now running on enabled ok
    rw [step_of_breakIn now running on enabled ok]
    refine ⟨fun (diverts : Diverts (exEvent s.atBoundary)) => if_pos (evtDiverts_iff.mpr diverts),
      fun not_halt not_trap => ?_⟩
    have goes_on : ¬ Diverts (exEvent s.atBoundary) := not_or.mpr ⟨not_halt, not_trap⟩
    rw [if_neg (mt evtDiverts_iff.mp goes_on)]
    obtain ⟨w, b, n, kept⟩ := debugEvent_goesOn (e := exEvent s.atBoundary) (s := s.atBoundary) enabled ok goes_on
    have pc : t.pc = s.pc := by rw [kept]; rfl
    have nmi : t.nmiPending = s.nmiPending := by rw [kept]; rfl
    have dae : t.daePending = s.daePending := by rw [kept]; rfl
    have fcd : t.fcdPending = s.fcdPending := by rw [kept]; rfl
    have ready : interruptReady t = interruptReady s.atBoundary := by rw [kept]; rfl
    rw [← pc, ← nmi, ← dae, ← fcd, ← ready]
    refine ⟨afterBreakIn_nmi, fun no_nmi no_dae no_fcd not_ready i bs rest fetched decoded no_trigger => ?_⟩
    rw [afterBreakIn_none no_nmi no_dae no_fcd not_ready, executeOne_of_decode fetched decoded no_trigger]

end Sys2Proof.Machine
end

section
/-!
PROOFS. The trigger events (61_debug R735 to R738, 11_state_system R99): when a trigger raises an event, which trigger acts, and
what the step then is.
-/
namespace Sys2Proof.Machine

/-! ### The condition of a trigger -/

/-- Table 17 (11 R99): a signal of each side that TRnEVT[11:8] joins, or a signal that it joins with none. -/
theorem combine_iff (sel : BitVec 4) (du dlr cu clr : Bool) : combine sel du dlr cu clr = true ↔
    (sel.getLsbD 0 = true ∧ dlr = true ∧ clr = true) ∨ (sel.getLsbD 1 = true ∧ dlr = true ∧ cu = true) ∨
    (sel.getLsbD 2 = true ∧ du = true ∧ clr = true) ∨ (sel.getLsbD 3 = true ∧ du = true ∧ cu = true) ∨
    (¬ sel.getLsbD 2 = true ∧ ¬ sel.getLsbD 3 = true ∧ du = true) ∨
    (¬ sel.getLsbD 0 = true ∧ ¬ sel.getLsbD 1 = true ∧ dlr = true) ∨
    (¬ sel.getLsbD 1 = true ∧ ¬ sel.getLsbD 3 = true ∧ cu = true) ∨
    (¬ sel.getLsbD 0 = true ∧ ¬ sel.getLsbD 2 = true ∧ clr = true) := by
  simp only [combine, Bool.or_eq_true, Bool.and_eq_true, Bool.not_eq_true', Bool.not_eq_true, or_assoc, and_assoc]

/-- Data range k is there and its mode has bit j (11 R73). -/
def DataMode (s : State) (k : Fin 4) (j : Nat) : Prop :=
  k.val < s.platform.nDataRanges ∧ (protSet s).dpm.getLsbD (8 * k.val + j) = true

/-- Code range k is there and its mode has bit j (11 R74). -/
def CodeMode (s : State) (k : Fin 4) (j : Nat) : Prop :=
  k.val < s.platform.nCodeRanges ∧ (protSet s).cpm.getLsbD (8 * k.val + j) = true

section signals

variable {s : State} {n : Fin 8} {k : Fin 4} (same : k.val = n.val)

include same

theorem trigRange_eq : trigRange n = k := by
  have := k.isLt
  exact Fin.ext (by simp only [trigRange]; omega)

theorem trigDataThere_iff : trigDataThere s n = true ↔ k.val < s.platform.nDataRanges := by
  rw [trigDataThere, decide_eq_true_eq]
  omega

theorem trigCodeThere_iff : trigCodeThere s n = true ↔ k.val < s.platform.nCodeRanges := by
  rw [trigCodeThere, decide_eq_true_eq]
  omega

/-- D_LR(n), where the data range is there (61 R735). -/
theorem trigDlr_signal_iff {acc : List TriggerAccess} : (trigDataThere s n && trigDlr s k acc) = true ↔
    ∃ x ∈ acc,
      (x.read = true ∧ ((DataMode s k 4 ∧ (protSet s).dprL[k] ≤ x.ea ∧ x.ea < (protSet s).dprU[k]) ∨
        (DataMode s k 2 ∧ x.ea = (protSet s).dprL[k]))) ∨
      (x.write = true ∧ ((DataMode s k 5 ∧ (protSet s).dprL[k] ≤ x.ea ∧ x.ea < (protSet s).dprU[k]) ∨
        (DataMode s k 3 ∧ x.ea = (protSet s).dprL[k]))) := by
  by_cases there : k.val < s.platform.nDataRanges
  · simp only [(trigDataThere_iff same).mpr there, there, Bool.true_and, true_and, trigDlr, List.any_eq_true,
      Bool.or_eq_true, Bool.and_eq_true, inData, modeBit, DataMode, decide_eq_true_eq]
  · simp only [Bool.eq_false_iff.mpr (mt (trigDataThere_iff same).mp there), there, DataMode, Bool.false_and,
      Bool.false_eq_true, false_and, or_self, and_false, exists_false]

/-- D_U(n), where the data range is there (61 R735). -/
theorem trigDu_signal_iff {acc : List TriggerAccess} : (trigDataThere s n && trigDu s k acc) = true ↔
    ∃ x ∈ acc,
      ((x.read = true ∧ DataMode s k 0) ∨ (x.write = true ∧ DataMode s k 1)) ∧ x.ea = (protSet s).dprU[k] := by
  by_cases there : k.val < s.platform.nDataRanges
  · simp only [(trigDataThere_iff same).mpr there, there, Bool.true_and, true_and, trigDu, List.any_eq_true, Bool.or_eq_true,
      Bool.and_eq_true, modeBit, DataMode, decide_eq_true_eq, or_and_right]
  · simp only [Bool.eq_false_iff.mpr (mt (trigDataThere_iff same).mp there), there, DataMode, Bool.false_and,
      Bool.false_eq_true, false_and, or_self, and_false, exists_false]

/-- C_LR(n), where the code range is there (61 R735). -/
theorem trigClr_signal_iff {pc : Word} : (trigCodeThere s n && trigClr s k pc) = true ↔
    (CodeMode s k 5 ∧ (protSet s).cprL[k] ≤ pc ∧ pc < (protSet s).cprU[k]) ∨
      (CodeMode s k 3 ∧ pc = (protSet s).cprL[k]) := by
  simp only [Bool.and_eq_true, trigCodeThere_iff same, trigClr, Bool.or_eq_true, inCode, modeBit, CodeMode, decide_eq_true_eq,
    and_or_left, and_assoc]

/-- C_U(n), where the code range is there (61 R735). -/
theorem trigCu_signal_iff {pc : Word} :
    (trigCodeThere s n && trigCu s k pc) = true ↔ CodeMode s k 0 ∧ pc = (protSet s).cprU[k] := by
  simp only [Bool.and_eq_true, trigCodeThere_iff same, trigCu, modeBit, CodeMode, decide_eq_true_eq, and_assoc]

/-- Below 4, `cond(n)` is the combination of the signals of the range's two sides (61 R735). -/
theorem trigCond_iff {pc : Word} {acc : List TriggerAccess} :
    trigCond s n pc acc = true ↔ TriggerCondition s k s.trEvt[n] pc acc := by
  have sel (j : Nat) (hj : j < 4) : (s.trEvt[n].extractLsb' 8 4).getLsbD j = s.trEvt[n].getLsbD (8 + j) := by
    rw [BitVec.getLsbD_extractLsb', decide_eq_true hj, Bool.true_and]
  rw [trigCond, combine_iff, trigRange_eq same, trigDlr_signal_iff same, trigDu_signal_iff same, trigClr_signal_iff same,
    trigCu_signal_iff same, sel 0 (by decide), sel 1 (by decide), sel 2 (by decide), sel 3 (by decide)]
  exact Iff.rfl

end signals

/-! ### When a trigger raises an event -/

section raises

variable {s : State} {n : Fin 8} {pc : Word}

/-- TRnEVT can raise an event: it is there with its protection set, the CDC is on, its ASI matches, its action is implemented
(61 R735, R738, log 37). -/
theorem trigArmed_iff : trigArmed s n = true ↔
    n.val < s.platform.nTriggers ∧ (pswPrs s.psw).toNat < s.platform.nProtSets ∧ dbgDe s.dbgsr = true ∧
      (s.trEvt[n].getLsbD 15 = true → s.trEvt[n].extractLsb' 16 5 = triggerAsi s n) ∧ evtEnabled s s.trEvt[n] = true := by
  have asi : asiOk s n = true ↔ (s.trEvt[n].getLsbD 15 = true → s.trEvt[n].extractLsb' 16 5 = triggerAsi s n) := by
    rw [asiOk, Bool.or_eq_true, Bool.not_eq_true', ← Bool.not_eq_true, decide_eq_true_eq,
      Decidable.imp_iff_not_or]
  rw [trigArmed, Bool.and_eq_true, Bool.and_eq_true, Bool.and_eq_true, asi, trigExists, Bool.and_eq_true, Bool.not_eq_true',
    protSetMissing, decide_eq_true_eq, decide_eq_false_iff_not, Nat.not_le]
  simp only [and_assoc]

/-- `trigger_bbm(n)` (61 R736). -/
theorem trigBefore_iff :
    trigBefore s n pc = true ↔ trigArmed s n = true ∧ s.trEvt[n].getLsbD 3 = true ∧ trigCond s n pc [] = true := by
  rw [trigBefore, Bool.and_eq_true, Bool.and_eq_true, and_assoc]
  rfl

/-- `trigger_bam(n)` (61 R736). -/
theorem trigAfter_iff {acc : List TriggerAccess} :
    trigAfter s n pc acc = true ↔ trigArmed s n = true ∧ trigCond s n pc acc = true ∧ trigBefore s n pc = false := by
  rw [trigAfter, Bool.and_eq_true, Bool.and_eq_true, Bool.not_eq_true', and_assoc]

/-- From 4 up a trigger has no range (log 56). -/
theorem trigCond_high (high : 4 ≤ n.val) (acc : List TriggerAccess) : trigCond s n pc acc = false := by
  have no_data : trigDataThere s n = false := decide_eq_false (by omega)
  have no_code : trigCodeThere s n = false := decide_eq_false (by omega)
  simp only [trigCond, no_data, no_code, Bool.false_and, combine, Bool.and_false, Bool.or_false]

end raises

/-! ### The trigger that acts -/

/-- The first of the numbers below 8 with a property. -/
theorem find_finRange {p : Fin 8 → Bool} {n : Fin 8} (has : p n = true) (first : ∀ k, k < n → p k = false) :
    (List.finRange 8).find? p = some n := by
  rw [List.find?_eq_some_iff_getElem]
  refine ⟨has, n.val, by simp, by simp, fun j hj => ?_⟩
  rw [List.getElem_finRange, first _ hj]
  rfl

section acts

variable {s : State} {n : Fin 8}

theorem firstBefore_eq_some (due : trigBefore s n s.pc = true) (first : ∀ k, k < n → trigBefore s k s.pc = false) :
    firstBefore s = some (trigEvent s n) := by
  rw [firstBefore, find_finRange due first, Option.map_some]

theorem firstAfter_eq_some {acc : List TriggerAccess} (due : trigAfter s n s.pc acc = true)
    (first : ∀ k, k < n → trigAfter s k s.pc acc = false) : firstAfter s acc = some (trigEvent s n) := by
  rw [firstAfter, find_finRange due first, Option.map_some]

theorem firstBefore_eq_none (none_due : ∀ k, trigBefore s k s.pc = false) : firstBefore s = none := by
  simp [firstBefore, none_due]

theorem firstAfter_eq_none {acc : List TriggerAccess} (none_due : ∀ k, trigAfter s k s.pc acc = false) :
    firstAfter s acc = none := by
  simp [firstAfter, none_due]

end acts

/-! ### The step -/

/-- A trigger before the instruction acts first; a halt or a trap keeps the instruction from running (61 R736, R737). -/
theorem executeOne_of_trigger_before {s b t : State} {f : Except Stop (List Byte)} {e : DebugEvent}
    (started : spendAsi s = b) (fetched : fetch b = f) (not_own : ownEventDue b (fetchedInstr f) true = false)
    (due : firstBefore b = some e) (ok : debugEvent e b = .ok t) :
    executeOne s = if evtDiverts e then .next { t with completed := false }
      else afterTriggers b (fetchedInstr f) (runFetched t f) := by
  subst fetched started
  unfold executeOne
  generalize spendAsi s = b at *
  dsimp only
  generalize fetch b = f at *
  rw [if_neg (Bool.eq_false_iff.mp not_own), due]
  simp only [ok]

/-- An instruction that did not complete raises no event after it (61 R737). -/
theorem afterTriggers_of_not_completed (s : State) (i : Option Instr) {u : State} (not_completed : u.completed = false) :
    afterTriggers s i (.next u) = .next u := by
  simp only [afterTriggers, not_completed, Bool.false_and, Bool.false_eq_true, if_false]

/-- A trigger after an instruction that completed acts on what it left (61 R737). -/
theorem afterTriggers_of_due {s u t : State} {i : Instr} {e : DebugEvent} (completed : u.completed = true)
    (not_own : ownEventDue s (some i) false = false) (due : firstAfter s (triggerAccesses s i) = some e)
    (ok : debugEvent e u = .ok t) : afterTriggers s (some i) (.next u) = .next t := by
  simp only [afterTriggers, completed, not_own, Option.map_some, Option.getD_some, due, ok]
  rfl

theorem atInstruction_trEvt (s : State) : s.atInstruction.trEvt = s.trEvt := by
  unfold State.atInstruction spendAsi
  split <;> rfl

/-- Settles O45: when a trigger raises an event by `trigBefore_iff`, `trigAfter_iff` and `trigCond_iff`, the step by
`executeOne_of_trigger_before` and `afterTriggers_of_due`. -/
theorem triggerEvents : Obligations.TriggerEvents := by
  unfold Obligations.TriggerEvents
  refine ⟨?_, ?_⟩
  · intro s n pc acc w armed
    refine ⟨fun mmu => ?_, fun high => ?_, fun k same => ⟨?_, ?_⟩⟩
    · rw [triggerAsi, mmu]
      rfl
    · simp only [trigAfter, trigBefore, trigCond_high high, Bool.and_false, Bool.false_and, and_self]
    · rw [trigBefore_iff, trigArmed_iff, trigCond_iff same]
    · rw [trigAfter_iff, trigArmed_iff, trigCond_iff same]
  · intro s i bs rest n quiet fetched decoded b e halts
    have instr := fetchedInstr_of_decode decoded
    have event : trigEvent b n = e := by rw [trigEvent, atInstruction_trEvt]
    refine ⟨fun not_own due first t ok => ?_, fun none_before not_own due first u ran => ?_⟩
    · have acts := (firstBefore_eq_some due first).trans (congrArg some event)
      rw [step_of_quiet quiet, executeOne_of_trigger_before (b := b) rfl fetched (instr ▸ not_own) acts ok]
      refine ⟨fun (diverts : Diverts e) => if_pos (evtDiverts_iff.mpr diverts),
        fun (goes_on : ¬ Diverts e) none_after => ?_⟩
      rw [if_neg (mt evtDiverts_iff.mp goes_on), instr, afterTriggers_of_no_trigger (firstAfter_eq_none none_after),
        runFetched_of_decode decoded]
    · have acts := (firstAfter_eq_some due first).trans (congrArg some event)
      have step_eq : step s = afterTriggers b (some i) (.next u) := by
        rw [step_of_quiet quiet, executeOne_of_no_trigger (t := b) rfl fetched
          (instr ▸ none_before.imp_right firstBefore_eq_none), instr, runFetched_of_decode decoded, ran]
      rw [step_eq]
      exact ⟨afterTriggers_of_not_completed b (some i),
        fun completed t ok => afterTriggers_of_due completed not_own acts ok⟩

end Sys2Proof.Machine
end

section
/-!
PROOFS. Reset (70_reset_and_hazards R782 to R784, R796): the state it gives is well kept, and its registers have the printed
values, whatever the implementation's parameters are.
-/
namespace Sys2Proof.Machine

/-! ### MMU_CON after reset -/

section mmuCon

variable {p : Platform}

/-- MMU_CON of an implementation with an MMU, bit by bit: TSZ alone (11 R81). -/
theorem getLsbD_resetOf_mmuCon (there : p.hasMmu = true) (j : Nat) :
    (State.resetOf p).mmuCon.getLsbD j = (decide (5 ≤ j) && p.tlbTsz.getLsbD (j - 5)) := by
  rw [State.resetOf, if_pos there, BitVec.getLsbD_shiftLeft, BitVec.getLsbD_setWidth]
  by_cases high : 12 ≤ j
  · rw [BitVec.getLsbD_of_ge p.tlbTsz (j - 5) (by omega)]
    simp
  · rw [decide_eq_true (show j < 32 by omega), decide_eq_true (show j - 5 < 32 by omega)]
    grind

/-- MMU_CON of an implementation with an MMU, from its fields (11 R81). -/
theorem resetOf_mmuCon (there : p.hasMmu = true) : (State.resetOf p).mmuCon = 0#16 ++ 0#1 ++ 0#3 ++ p.tlbTsz ++ 0#5 := by
  apply BitVec.eq_of_getLsbD_eq
  intro j hj
  rw [getLsbD_resetOf_mmuCon there]
  simp only [BitVec.getLsbD_append, BitVec.getLsbD_zero]
  grind

/-- MMU_CON of an implementation without an MMU: NOMMU alone (11 R81). -/
theorem resetOf_mmuCon_none (absent : p.hasMmu = false) : (State.resetOf p).mmuCon = 0x8000 := by
  rw [State.resetOf, absent]
  rfl

/-- MMU_CON after reset: its reserved bits are 0, NOMMU says whether there is an MMU, and translation is off (11 R81). -/
theorem resetOf_mmuCon_fields (p : Platform) : (State.resetOf p).mmuCon &&& 0xFFFF7000 = 0 ∧
    mmuNone (State.resetOf p).mmuCon = !p.hasMmu ∧ mmuV (State.resetOf p).mmuCon = false := by
  cases mmu : p.hasMmu with
  | false =>
    rw [resetOf_mmuCon_none mmu]
    decide
  | true =>
    have nommu : (State.resetOf p).mmuCon.getLsbD 15 = false := by
      rw [getLsbD_resetOf_mmuCon mmu, BitVec.getLsbD_of_ge p.tlbTsz (15 - 5) (by decide), Bool.and_false]
    refine ⟨bits_clear_iff.mpr fun i hi reserved => ?_, nommu, getLsbD_resetOf_mmuCon mmu 0⟩
    have outside : i < 5 ∨ 12 ≤ i := by revert reserved; revert i; decide
    rw [getLsbD_resetOf_mmuCon mmu]
    rcases outside with low | high
    · rw [decide_eq_false (by omega), Bool.false_and]
    · rw [BitVec.getLsbD_of_ge p.tlbTsz (i - 5) (by omega), Bool.and_false]

/-- The page sizes after reset (11 R81). -/
theorem resetOf_pageSizes (there : p.hasMmu = true) :
    mmuSza (State.resetOf p).mmuCon = 0 ∧ mmuSzb (State.resetOf p).mmuCon = 0 := by
  have clear (lo : Nat) (low : lo + 2 ≤ 5) : (State.resetOf p).mmuCon.extractLsb' lo 2 = 0 := by
    apply BitVec.eq_of_getLsbD_eq
    intro j hj
    rw [BitVec.getLsbD_extractLsb', getLsbD_resetOf_mmuCon there, decide_eq_false (by omega : ¬ 5 ≤ lo + j), Bool.false_and,
      Bool.and_false, BitVec.ofNat_eq_ofNat, BitVec.getLsbD_zero]
  exact ⟨clear 1 (by decide), clear 3 (by decide)⟩

end mmuCon

/-! ### The other registers and the nodes after reset -/

theorem resetOf_psw (p : Platform) : (State.resetOf p).psw = 0xB80 := rfl
theorem resetOf_icr (p : Platform) : (State.resetOf p).icr = 0 := rfl
theorem resetOf_syscon (p : Platform) : (State.resetOf p).syscon = 0 := rfl
theorem resetOf_dbgsr (p : Platform) : (State.resetOf p).dbgsr = if p.bootHalt then 2 else 0 := rfl

theorem resetOf_prot (p : Platform) (x : Fin 4) : (State.resetOf p).prot[x] = ProtSet.reset := Vector.getElem_replicate ..

theorem resetOf_trEvt (p : Platform) (n : Fin 8) : (State.resetOf p).trEvt[n] = 0 := Vector.getElem_replicate ..

theorem reset_codeRange (n : Fin 4) : ProtSet.reset.cprL[n] = 0 ∧ ProtSet.reset.cprU[n] = 0 :=
  ⟨Vector.getElem_replicate .., Vector.getElem_replicate ..⟩

/-- A node that is there after reset is disabled and without a request (log 6). -/
theorem getNode_resetOf {p : Platform} {k : Nat} {n : Src} (node : getNode (State.resetOf p) k = some n) : n = Src.reset := by
  unfold getNode at node
  split at node
  · exact (Option.some.inj node).symm.trans (Vector.getElem_replicate ..)
  · split at node
    · split at node
      · exact (Option.some.inj node).symm.trans (Vector.getElem_replicate ..)
      · cases node
    · obtain ⟨-, -, e⟩ := List.mem_map.mp (List.mem_of_getElem? node)
      exact e.symm

/-! ### The state after reset -/

/-- Settles O9: every register after reset is a constant, a parameter cut to its writable bits, or MMU_CON. -/
theorem resetMeetsTheInvariant : Obligations.ResetMeetsTheInvariant := by
  unfold Obligations.ResetMeetsTheInvariant
  intro p
  obtain ⟨mmuCon, -, -⟩ := resetOf_mmuCon_fields p
  exact {
    mem := rfl, pc := evenAddr_and_one _, psw := by rw [resetOf_psw]; decide
    pcxi := BitVec.zero_and, fcx := BitVec.zero_and, lcx := BitVec.zero_and, icr := BitVec.zero_and
    biv := evenAddr_and_one _, btv := evenAddr_and_one _, syscon := BitVec.zero_and
    cpr := fun x n => by
      obtain ⟨lower, upper⟩ := reset_codeRange n
      rw [resetOf_prot, lower, upper]
      decide
    mmuCon, mmuAsi := BitVec.zero_and
    mmuResults := ⟨BitVec.zero_and, BitVec.zero_and, BitVec.zero_and, BitVec.zero_and⟩
    dbgsr := by
      rw [resetOf_dbgsr]
      split <;> decide
    events := ⟨BitVec.zero_and, BitVec.zero_and, BitVec.zero_and⟩
    triggers := fun n => by rw [resetOf_trEvt, BitVec.ofNat_eq_ofNat, BitVec.zero_and]
    cpm := fun x => by rw [resetOf_prot]; decide
    dms := evenAddr_and_one _, dcx := cut_and_eq_zero (by decide)
    tlbA := List.length_replicate, tlbB := List.length_replicate, extraSrc := List.length_map _ }

/-- Settles O10: PSW, ICR, SYSCON and the event registers are constants; MMU_CON by `resetOf_mmuCon`, the nodes by
`getNode_resetOf`. -/
theorem resetHasThePrintedValues : Obligations.ResetHasThePrintedValues := by
  unfold Obligations.ResetHasThePrintedValues
  intro p s
  obtain ⟨-, nommu, v⟩ := resetOf_mmuCon_fields p
  rw [resetOf_psw, resetOf_icr, resetOf_syscon]
  refine ⟨rfl, rfl, rfl, rfl, rfl, rfl, rfl, rfl, rfl, rfl, rfl, rfl, rfl, rfl, rfl, rfl, rfl, rfl, v, rfl, rfl, rfl,
    fun there => ⟨resetOf_mmuCon there, resetOf_pageSizes there⟩, nommu, rfl, rfl, rfl, rfl, resetOf_trEvt p,
    fun k n node => ?_⟩
  rw [getNode_resetOf node]
  exact ⟨rfl, rfl, rfl⟩

end Sys2Proof.Machine
end

section
/-!
PROOFS. The store of bytes (20_memory R120, R131): a canonical list is determined by what its addresses read as, and bytes
written to memory read back.
-/
namespace Sys2Proof.Machine

/-! ### The canonical list -/

/-- The first entry of a canonical list and the rest of it (log 7). -/
theorem Memory.wfFrom_cons {lo a : Nat} {b : Byte} {rest : List Host.Cell} :
    Memory.wfFrom lo ((a, b) :: rest) = true ↔
      lo ≤ a ∧ a < 2 ^ 32 ∧ b ≠ Memory.unlisted ∧ Memory.wfFrom (a + 1) rest = true := by
  simp [Memory.wfFrom, and_assoc]

/-- A read at the address of the first entry. -/
theorem Memory.get_cons_same (a : Nat) (b : Byte) (rest : List Host.Cell) : Memory.get ((a, b) :: rest) a = b := if_pos rfl

/-- The first entry does not matter to any other address. -/
theorem Memory.get_cons_other {a x : Nat} (b : Byte) (rest : List Host.Cell) (h : a ≠ x) :
    Memory.get ((a, b) :: rest) x = Memory.get rest x := if_neg h

/-- The first address of a canonical list reads otherwise in a list whose addresses are all higher. -/
theorem Memory.not_alike_of_first {lo a : Nat} {b : Byte} {rest n : List Host.Cell}
    (hm : Memory.wfFrom lo ((a, b) :: rest) = true) (hn : Memory.wfFrom (a + 1) n = true) :
    Memory.get ((a, b) :: rest) a ≠ Memory.get n a := by
  obtain ⟨-, -, listed, -⟩ := Memory.wfFrom_cons.mp hm
  rwa [Memory.get_cons_same, Memory.get_below n (a + 1) a hn (Nat.lt_succ_self a)]

/-- Canonical lists that read alike are equal: the lower of the two first entries cannot be missing from the other list. -/
theorem Memory.eq_of_alike {m n : List Host.Cell} {lo : Nat} (hm : Memory.wfFrom lo m = true)
    (hn : Memory.wfFrom lo n = true) (alike : ∀ x, x < 2 ^ 32 → Memory.get m x = Memory.get n x) : m = n := by
  induction m generalizing n lo with
  | nil =>
    cases n with
    | nil => rfl
    | cons c rest =>
      obtain ⟨-, bound, -, -⟩ := Memory.wfFrom_cons.mp hn
      exact absurd (alike c.1 bound).symm (Memory.not_alike_of_first hn rfl)
  | cons c rest ih =>
    obtain ⟨a, b⟩ := c
    obtain ⟨low, bound, listed, canonical⟩ := Memory.wfFrom_cons.mp hm
    cases n with
    | nil => exact absurd (alike a bound) (Memory.not_alike_of_first hm rfl)
    | cons d rest' =>
      obtain ⟨a', b'⟩ := d
      obtain ⟨low', bound', listed', canonical'⟩ := Memory.wfFrom_cons.mp hn
      rcases Nat.lt_trichotomy a a' with before | rfl | after
      · have higher : Memory.wfFrom (a + 1) ((a', b') :: rest') = true :=
          Memory.wfFrom_cons.mpr ⟨before, bound', listed', canonical'⟩
        exact absurd (alike a bound) (Memory.not_alike_of_first hm higher)
      · have first : b = b' := by simpa only [Memory.get_cons_same] using alike a bound
        have others : ∀ x, x < 2 ^ 32 → Memory.get rest x = Memory.get rest' x := by
          intro x hx
          by_cases h : a = x
          · subst h
            rw [Memory.get_below rest _ a canonical (Nat.lt_succ_self a),
              Memory.get_below rest' _ a canonical' (Nat.lt_succ_self a)]
          · simpa only [Memory.get_cons_other _ _ h] using alike x hx
        rw [first, ih canonical canonical' others]
      · have higher : Memory.wfFrom (a' + 1) ((a, b) :: rest) = true :=
          Memory.wfFrom_cons.mpr ⟨after, bound, listed, canonical⟩
        exact absurd (alike a' bound').symm (Memory.not_alike_of_first hn higher)

/-! ### Bytes written to memory -/

/-- A write to memory does not change what is memory. -/
theorem AllMemory.setMemBytes {s : State} {pas : List Word} (h : AllMemory s pas) (qas : List Word) (bs : List Byte) :
    AllMemory (s.setMemBytes qas bs) pas := by
  intro pa mem
  rw [State.setMemBytes_eq]
  exact h pa mem

/-- Settles O22: extensionality by `Memory.eq_of_alike`; a write of memory is `setMemBytes`, whose bytes read back. -/
theorem memoryIsCanonicalAndReadsBack : Obligations.MemoryIsCanonicalAndReadsBack := by
  unfold Obligations.MemoryIsCanonicalAndReadsBack
  refine ⟨fun m n hm hn alike => Memory.eq_of_alike hm hn alike, fun s pas bs canonical memory distinct lengths => ?_⟩
  refine ⟨?_, fun pa outside => memByte_physWrite_other s pas bs pa outside, ?_⟩
  · rw [physWrite_memory memory, physRead_memory (memory.setMemBytes pas bs),
      memByte_setMemBytes_all s pas bs canonical distinct lengths]
  · rw [physWrite_memory memory, State.setMemBytes_eq]

end Sys2Proof.Machine
end

section
/-!
PROOFS. What a load, store or read-modify-write leaves alone (20_memory R175, 40 R354): the bus access and the update of its
addressing mode change no register or status but those an access may change, and no byte beside its own.
-/
namespace Sys2Proof.Machine

/-- A state without what a data access may change besides the pc: what a bus access can change, and the general registers. Two
states equal under it agree in every other field. -/
def State.eraseAccess (s : State) : State :=
  { s.eraseBus with d := Vector.replicate 16 0, a := Vector.replicate 16 0, pc := 0, completed := false }

/-- What an access to the bytes `pas` leaves alone on its way from `s` to `t`: where it does not write, memory and the service
requests; the bytes beside its own, and those for which the bus reports an error. An error on a write asks for a DAE (60 R702). -/
structure AccessLeaves (s t : State) (pas : List Word) (writes : Bool) : Prop where
  unwritten : writes = false → t.mem = s.mem ∧ t.cpuSrc = s.cpuSrc ∧ t.sbSrc = s.sbSrc ∧ t.extraSrc = s.extraSrc
  others : ∀ pa, pa ∉ pas → t.memByte pa = s.memByte pa
  errors : ∀ pa, busError s pa = true → t.memByte pa = s.memByte pa
  dae : t.daePending = (s.daePending || (writes && pas.any (busError s)))
  rest : t.eraseAccess = s.eraseAccess

/-- Where the bus reports an error is the platform's alone, which no access changes. -/
theorem AccessLeaves.busError {s t : State} {pas : List Word} {writes : Bool} (h : AccessLeaves s t pas writes) :
    Machine.busError t = Machine.busError s := by
  have platform : t.platform = s.platform := (congrArg State.platform h.rest :)
  funext pa
  simp only [Machine.busError, scratchRange, platform]

/-- A read-modify-write is a read and a write of the same bytes. -/
theorem AccessLeaves.trans {s t u : State} {pas : List Word} (h : AccessLeaves s t pas false)
    (h' : AccessLeaves t u pas true) : AccessLeaves s u pas true where
  unwritten := nofun
  others pa outside := (h'.others pa outside).trans (h.others pa outside)
  errors pa error := (h'.errors pa (h.busError ▸ error)).trans (h.errors pa error)
  dae := by rw [h'.dae, h.dae, h.busError, Bool.false_and, Bool.or_false]
  rest := h'.rest.trans h.rest

theorem accessLeaves_physRead (s : State) (pas : List Word) : AccessLeaves s (physRead s pas).2 pas false := by
  rw [physRead_eq]
  exact ⟨fun _ => ⟨rfl, rfl, rfl, rfl⟩, fun _ _ => rfl, fun _ _ => rfl, (Bool.or_false _).symm, rfl⟩

theorem accessLeaves_physWrite (s : State) (pas : List Word) (bs : List Byte) :
    AccessLeaves s (physWrite s pas bs) pas true where
  unwritten := nofun
  others := memByte_physWrite_other s pas bs
  errors _ := memByte_physWrite_busError s pas bs
  dae := physWrite_daePending s pas bs
  rest := congrArg (fun u : State => { u with
    d := Vector.replicate 16 0, a := Vector.replicate 16 0, pc := 0, completed := false }) (physWrite_eraseBus s pas bs).1

theorem AccessLeaves.applyUpdate {s t : State} {pas : List Word} {writes : Bool} (h : AccessLeaves s t pas writes)
    (u : Option (Fin 16 × Word)) : AccessLeaves s (Machine.applyUpdate t u) pas writes := by
  rw [applyUpdate_eq]
  exact { h with }

/-- The general registers, the pc and the count of free values are no part of what an access leaves alone. -/
theorem AccessLeaves.registers {s t : State} {pas : List Word} {writes : Bool} (h : AccessLeaves s t pas writes)
    (d a : Vector Word 16) (n : Nat) (pc : Word) (done : Bool) :
    AccessLeaves s { t with d := d, a := a, freeCount := n, pc := pc, completed := done } pas writes := { h with }

/-- An instruction whose access is in order reaches a next state: the pc moves on by the instruction's length, and what the
access leaves alone is as before. -/
theorem exec_accessLeaves {i : Instr} {x : DataAccess} {s : State} (hx : dataAccess i = some x) (hr : RegistersOk s x)
    (ho : AccessOk s x.mode x.kind) :
    ∃ t, exec i s = .next t ∧ t.pc = s.pc + lenBytes i.len ∧
      AccessLeaves s t (accessAddrs s x.mode x.kind.size) x.kind.writes := by
  obtain ⟨pair, destination, mode⟩ := hr
  have loads := (accessLeaves_physRead s (accessAddrs s x.mode x.kind.size)).applyUpdate (modeUpdate s x.mode)
  have stores (bs : List Byte) :=
    (accessLeaves_physWrite s (accessAddrs s x.mode x.kind.size) bs).applyUpdate (modeUpdate s x.mode)
  have modifies (bs : List Byte) := ((accessLeaves_physRead s (accessAddrs s x.mode x.kind.size)).trans
    (accessLeaves_physWrite _ (accessAddrs s x.mode x.kind.size) bs)).applyUpdate (modeUpdate s x.mode)
  cases i <;> simp only [dataAccess, Option.some.injEq, reduceCtorEq] at hx <;> subst hx
  case ldB len a m =>
    exact ⟨_, finish_dataLoad len a (fun bs => (byteOf bs).signExtend 32) mode ho, rfl, loads.registers _ _ _ _ _⟩
  case ldBu len a m =>
    exact ⟨_, finish_dataLoad len a (fun bs => (byteOf bs).setWidth 32) mode ho, rfl, loads.registers _ _ _ _ _⟩
  case ldH len a m =>
    exact ⟨_, finish_dataLoad len a (fun bs => (halfOf bs).signExtend 32) mode ho, rfl, loads.registers _ _ _ _ _⟩
  case ldHu len a m =>
    exact ⟨_, finish_dataLoad len a (fun bs => (halfOf bs).setWidth 32) mode ho, rfl, loads.registers _ _ _ _ _⟩
  case ldW len a m => exact ⟨_, finish_dataLoad len a wordOf mode ho, rfl, loads.registers _ _ _ _ _⟩
  case ldD len a m => exact ⟨_, exec_ldD len (by simpa [oddPair] using pair) mode ho, rfl, loads.registers _ _ _ _ _⟩
  case ldA len a m =>
    obtain ⟨w, -, put⟩ := putAddr_eq m a _ _
    exact ⟨_, finish_addrLoad len pair destination mode ho put, rfl, loads.registers _ _ _ _ _⟩
  case ldDa len a m =>
    obtain ⟨v, w, -, -, put⟩ := putAddr_pair_eq m a _ _ _
    exact ⟨_, finish_addrLoad len pair destination mode ho put, rfl, loads.registers _ _ _ _ _⟩
  case stB | stH | stW | stD => exact ⟨_, finish_store _ _ pair mode ho, rfl, (stores _).registers _ _ _ _ _⟩
  case stA len a m => exact ⟨_, finish_addrStore len _ (useStored_eq m a) pair mode ho, rfl, (stores _).registers _ _ _ _ _⟩
  case stDa len a m =>
    exact ⟨_, finish_addrStore len _ (useStored_pair_eq m a) pair mode ho, rfl, (stores _).registers _ _ _ _ _⟩
  case ldmst | stT => exact ⟨_, finish_rmw _ _ pair mode ho, rfl, (modifies _).registers _ _ _ _ _⟩
  case swapW len a m => exact ⟨_, exec_swapW len a mode ho, rfl, (modifies _).registers _ _ _ _ _⟩

/-- Settles O21: the next state of every access by `exec_accessLeaves`. -/
theorem dataAccessFrame : Obligations.DataAccessFrame := by
  unfold Obligations.DataAccessFrame
  intro i x s hx hr ho
  obtain ⟨t, next, pc, leaves⟩ := exec_accessLeaves hx hr ho
  refine ⟨t, next, pc, fun reads => ?_, leaves.others, ?_⟩
  · obtain ⟨mem, cpuSrc, sbSrc, extraSrc⟩ := leaves.unwritten reads
    exact ⟨mem, cpuSrc, sbSrc, extraSrc, by rw [leaves.dae, reads, Bool.false_and, Bool.or_false]⟩
  · exact congrArg (fun u : State => { u with
      d := s.d, a := s.a, pc := s.pc, mem := s.mem, cpuSrc := s.cpuSrc, sbSrc := s.sbSrc, extraSrc := s.extraSrc,
      devices := s.devices, freeCount := s.freeCount, daePending := s.daePending, completed := s.completed }) leaves.rest

end Sys2Proof.Machine
end

section
/-!
PROOFS. A data access behind translation and range protection (20_memory R175 steps 6 and 7, 21 R245, 60 R683, R701, R702): MPP,
the refusal in the CSFR window, DSE on a read, and a store whose bus error comes back as a DAE.
-/
namespace Sys2Proof.Machine

/-- The last checks of R175, on the bytes `pas` of an access: steps 6 and 7. -/
def checkBytes (s : State) (reads : Bool) (pas : List Word) : Except Stop (List Word) := do
  raiseIf (isUser0 s && pas.any fun pa => hasP (attrOf s pa)) .mpp
  stopIf (pas.any (inCsfrWindow s)) (.refuse .csfrAccess)
  raiseIf (pas.any (fun pa => !hasD (attrOf s pa)) || (reads && pas.any (busError s))) .dse
  .ok pas

section checkData
variable {s : State} {m : Mode} {kind : AccessKind}

/-- Step 5 of R175 lets an access pass whose ranges are in order. -/
theorem RangesOk.guards (hr : RangesOk s m kind) :
    ((modeHeads s m kind.size).any (headChecked s) && protSetMissing s) = false ∧
    (kind.readRange && (modeHeads s m kind.size).any fun a => headChecked s a && !readOk s a) = false ∧
    (kind.writes && (modeHeads s m kind.size).any fun a => headChecked s a && !writeOk s a) = false := by
  refine ⟨?_, ?_, ?_⟩
  · cases missing : protSetMissing s with
    | false => exact Bool.and_false _
    | true =>
      rw [Bool.and_true]
      exact List.any_eq_false.mpr fun a head checked => nomatch missing.symm.trans (hr.setThere a head checked)
  · rw [Bool.and_eq_false_imp]
    exact fun reads => List.any_eq_false.mpr fun a head => by simpa using hr.read reads a head
  · rw [Bool.and_eq_false_imp]
    exact fun writes => List.any_eq_false.mpr fun a head => by simpa using hr.write writes a head

/-- Past translation and range protection the bytes are left. -/
theorem checkData_eq_checkBytes (ha : AddressOk s m kind) (ht : TranslationOk s m kind) (hr : RangesOk s m kind) :
    checkData s m kind = checkBytes s kind.reads (accessAddrs s m kind.size) := by
  obtain ⟨segment, alignment, nonzero⟩ := ha.guards
  obtain ⟨setThere, readable, writable⟩ := hr.guards
  simp only [checkData, segment, alignment, nonzero, translateAll_of_translationOk ht, setThere, readable, writable,
    raiseIf_false, stopIf_false, ok_bind]
  rfl

end checkData

section checkBytes
variable {s : State} {pas : List Word} (reads : Bool)

/-- A User-0 access to peripheral space is MPP, before any other check of the bytes. -/
theorem checkBytes_mpp (user : isUser0 s = true) (h : ∃ pa ∈ pas, attrOf s pa = .peripheral) :
    checkBytes s reads pas = .error (.trap .mpp) := by
  obtain ⟨pa, mem, peripheral⟩ := h
  have found : (pas.any fun pa => hasP (attrOf s pa)) = true :=
    List.any_eq_true.mpr ⟨pa, mem, decide_eq_true peripheral⟩
  rw [checkBytes, user, found]
  rfl

theorem user0_peripheral_eq_false (h : isUser0 s = true → ∀ pa ∈ pas, attrOf s pa ≠ .peripheral) :
    (isUser0 s && pas.any fun pa => hasP (attrOf s pa)) = false := by
  rw [Bool.and_eq_false_imp]
  exact fun user => List.any_eq_false.mpr fun pa mem peripheral => h user pa mem (of_decide_eq_true peripheral)

/-- An access to the CSFR window that is no MPP is refused (D13, log 24). -/
theorem checkBytes_refused (allowed : isUser0 s = true → ∀ pa ∈ pas, attrOf s pa ≠ .peripheral)
    (h : ∃ pa ∈ pas, inCsfrWindow s pa = true) : checkBytes s reads pas = .error (.refuse .csfrAccess) := by
  rw [checkBytes, user0_peripheral_eq_false allowed, List.any_eq_true.mpr h]
  rfl

/-- A read that is neither and meets a bus error is DSE. -/
theorem checkBytes_dse (allowed : isUser0 s = true → ∀ pa ∈ pas, attrOf s pa ≠ .peripheral)
    (window : ∀ pa ∈ pas, inCsfrWindow s pa = false) (h : ∃ pa ∈ pas, busError s pa = true) :
    checkBytes s true pas = .error (.trap .dse) := by
  have outside : pas.any (inCsfrWindow s) = false := List.any_eq_false.mpr fun pa mem => by simp [window pa mem]
  rw [checkBytes, user0_peripheral_eq_false allowed, outside, List.any_eq_true.mpr h, Bool.true_and, Bool.or_true]
  rfl

end checkBytes

/-- An access that only writes is in order whatever the bus reports (60 R702). -/
theorem accessOk_of_store {s : State} {m : Mode} {kind : AccessKind} (ha : AddressOk s m kind)
    (ht : TranslationOk s m kind) (hr : RangesOk s m kind) (stores : kind.reads = false)
    (allowed : isUser0 s = true → ∀ pa ∈ accessAddrs s m kind.size, attrOf s pa ≠ .peripheral)
    (window : ∀ pa ∈ accessAddrs s m kind.size, inCsfrWindow s pa = false) : AccessOk s m kind :=
  { ha, ht, hr with
    peripheral := fun _ mem user => decide_eq_false (allowed user _ (List.mem_map_of_mem mem))
    window := fun _ mem => window _ (List.mem_map_of_mem mem)
    bus := fun reads => nomatch stores.symm.trans reads }

/-- A data access that does not read writes. -/
theorem writes_of_not_reads {i : Instr} {x : DataAccess} (hx : dataAccess i = some x) (stores : x.kind.reads = false) :
    x.kind.writes = true := by
  cases i <;> simp only [dataAccess, Option.some.injEq, reduceCtorEq] at hx <;> subst hx
  case ldB | ldBu | ldH | ldHu | ldW | ldD | ldA | ldDa => cases stores
  all_goals rfl

/-- An instruction whose registers are in order stops where the checks of its data access do. -/
theorem exec_of_checkData_error {i : Instr} {x : DataAccess} {s : State} {e : Stop} (hx : dataAccess i = some x)
    (hr : RegistersOk s x) (hc : checkData s x.mode x.kind = .error e) : exec i s = finish s (.error e) := by
  obtain ⟨f, he, -⟩ := exec_dataAccess i x s hx
  have pairs : opd (x.odd || modeOddPair x.mode) = .ok () := by simp [hr.pair, hr.mode.even]
  have globals : grwp s (x.global || modeWritesGlobal x.mode) = .ok () := by
    rw [grwp_eq_ok, Bool.or_eq_true]
    exact fun h => h.elim hr.destination hr.mode.global
  rw [he, pairs, globals, hc]
  rfl

/-- Settles O20: the last checks one by one; a store in bus error is in order, and its next state is that of
`exec_accessLeaves`. -/
theorem peripheralAndBusErrors : Obligations.PeripheralAndBusErrors := by
  unfold Obligations.PeripheralAndBusErrors
  intro i x s hx hregs haddr htrans hranges bytes
  have stopped {e : Stop} (h : checkBytes s x.kind.reads bytes = .error e) : exec i s = finish s (.error e) :=
    exec_of_checkData_error hx hregs ((checkData_eq_checkBytes haddr htrans hranges).trans h)
  refine ⟨fun user peripheral => stopped (checkBytes_mpp _ user peripheral), fun allowed =>
    ⟨fun window => stopped (checkBytes_refused _ allowed window), fun window bus => ⟨fun reads => ?_, fun stores => ?_⟩⟩⟩
  · exact stopped (reads ▸ checkBytes_dse allowed window bus)
  · obtain ⟨t, next, -, leaves⟩ :=
      exec_accessLeaves hx hregs (accessOk_of_store haddr htrans hranges stores allowed window)
    refine ⟨t, next, ?_, leaves.errors⟩
    rw [leaves.dae, writes_of_not_reads hx stores, List.any_eq_true.mpr bus, Bool.true_and, Bool.or_true]

end Sys2Proof.Machine
end

section
/-!
PROOFS. The first traps of a data access (60 R720, 20_memory R123, R136, R175 steps 1 to 3, 40 R347): what the tests for MEM
and ALN ask, the first failure of the checks, then that failure as the outcome of the instruction.
-/
namespace Sys2Proof.Machine

/-! ### What the tests ask -/

/-- The base register of an addressing mode, for the segment rule (20_memory R123). -/
def modeBaseReg : Mode → Option AReg
  | .abs _ => none
  | .base b _ | .baseLong b _ | .preInc b _ | .postInc b _ | .circ b _ | .bitRev b => some b

theorem modeBase_eq (s : State) (m : Mode) : modeBase s m = (modeBaseReg m).map s.ar := by cases m <;> rfl

/-- MEM: the address is in another segment than its base register, or a byte in another than the address (20_memory R123). -/
def CrossesSegment (s : State) (m : Mode) (k : Nat) : Prop :=
  (∃ b, modeBaseReg m = some b ∧ (modeEa s m).extractLsb' 28 4 ≠ (s.ar b).extractLsb' 28 4) ∨
    ∃ va ∈ modeBytes s m k, va.extractLsb' 28 4 ≠ (modeEa s m).extractLsb' 28 4

theorem memTrap_eq_true {s : State} {m : Mode} {k : Nat} : memTrap s m k = true ↔ CrossesSegment s m k := by
  simp only [memTrap, modeBase_eq, Option.any_map, Option.any_eq_true, List.any_eq_true, Bool.or_eq_true,
    decide_eq_true_eq]
  rfl

/-- ALN of a circular access: its buffer does not start at a multiple of 8, is no multiple of the size long, or ends at or before
the index (40 R347). -/
def BufferMisaligned (s : State) (m : Mode) (k : Nat) : Prop :=
  ∃ b off, m = .circ b off ∧ ((s.ar b).toNat % 8 ≠ 0 ∨
    ((s.ar (b + 1)).extractLsb' 16 16).toNat % k ≠ 0 ∨
    ((s.ar (b + 1)).extractLsb' 16 16).toNat ≤ ((s.ar (b + 1)).extractLsb' 0 16).toNat)

theorem circMisaligned_eq_true {s : State} {m : Mode} {k : Nat} : circMisaligned s m k = true ↔ BufferMisaligned s m k := by
  cases m with
  | circ b off =>
    simp only [circMisaligned, BufferMisaligned, Bool.or_eq_true, decide_eq_true_eq, or_assoc, Mode.circ.injEq]
    exact ⟨fun h => ⟨b, off, ⟨rfl, rfl⟩, h⟩, by rintro ⟨_, _, ⟨rfl, rfl⟩, h⟩; exact h⟩
  | abs | base | baseLong | preInc | postInc | bitRev => simp [circMisaligned, BufferMisaligned]

/-- ALN: the buffer of a circular access, or an address that is no multiple of the alignment (20_memory R136). -/
def Misaligned (s : State) (m : Mode) (k align : Nat) : Prop :=
  BufferMisaligned s m k ∨ (modeEa s m).toNat % align ≠ 0

theorem misaligned_eq_true {s : State} {m : Mode} {k align : Nat} :
    (circMisaligned s m k || (modeEa s m).toNat % align ≠ 0) = true ↔ Misaligned s m k align := by
  rw [Bool.or_eq_true, circMisaligned_eq_true, decide_eq_true_eq, Misaligned]

/-! ### The alignment -/

theorem alignOf_of_single {kind : AccessKind} (s : State) (ea : Word) (h : kind.dword = false) :
    alignOf s kind ea = kind.align := by
  rw [alignOf, h]
  rfl

/-- Data scratchpad RAM as a range of addresses (20_memory R164). -/
theorem inDspr_iff {s : State} {pa : Word} : inDspr s pa = true ↔
    0xD0000000 ≤ pa.toNat ∧ pa.toNat < min 0xD4000000 (0xD0000000 + s.platform.dsprBytes) := by
  have bound := pa.isLt
  rw [inDspr, Bool.and_eq_true, decide_eq_true_eq, decide_eq_true_eq, ← BitVec.toNat_inj]
  simp only [BitVec.extractLsb'_toNat, Nat.shiftRight_eq_div_pow, BitVec.toNat_ofNat]
  omega

/-- Where half-word alignment suffices for a double-word: cached memory and data scratchpad RAM (20_memory R135, R136). -/
def HalfWordSuffices (s : State) (ea : Word) : Prop :=
  ∃ pa, physOf s ea = some pa ∧
    (attrOf s pa = .cacheable ∧ (usesPte s ea = true → ∃ e, lookupTte s ea = some e ∧ e.c = true) ∨
      0xD0000000 ≤ pa.toNat ∧ pa.toNat < min 0xD4000000 (0xD0000000 + s.platform.dsprBytes))

theorem halfWordSuffices_iff {s : State} {ea : Word} :
    (physOf s ea).any (fun pa => cacheable s ea pa || inDspr s pa) = true ↔ HalfWordSuffices s ea := by
  have cached (pa : Word) : cacheable s ea pa = true ↔
      attrOf s pa = .cacheable ∧ (usesPte s ea = true → ∃ e, lookupTte s ea = some e ∧ e.c = true) := by
    rw [cacheable, Bool.and_eq_true, hasC, decide_eq_true_eq, and_comm, Bool.or_eq_true, Option.any_eq_true]
    cases usesPte s ea <;> simp
  simp only [Option.any_eq_true, Bool.or_eq_true, cached, inDspr_iff, HalfWordSuffices]

theorem alignOf_of_halfWord {s : State} {kind : AccessKind} {ea : Word} (hd : kind.dword = true)
    (h : HalfWordSuffices s ea) : alignOf s kind ea = 2 := by
  rw [alignOf, hd, halfWordSuffices_iff.mpr h]
  rfl

theorem alignOf_of_not_halfWord {s : State} {kind : AccessKind} {ea : Word} (h : ¬ HalfWordSuffices s ea) :
    alignOf s kind ea = kind.align := by
  rw [alignOf, Bool.eq_false_iff.mpr (mt halfWordSuffices_iff.mp h), Bool.and_false]
  rfl

/-! ### The first failure -/

section checkData
variable {s : State} {m : Mode} {kind : AccessKind} {align : Nat}

theorem checkData_mem (h : CrossesSegment s m kind.size) : checkData s m kind = .error (.trap .mem) := by
  rw [checkData, memTrap_eq_true.mpr h]
  rfl

variable (within : ¬ CrossesSegment s m kind.size) (ha : alignOf s kind (modeEa s m) = align)
include within ha

theorem checkData_aln (h : Misaligned s m kind.size align) : checkData s m kind = .error (.trap .aln) := by
  rw [checkData, Bool.eq_false_iff.mpr (mt memTrap_eq_true.mp within), ha, misaligned_eq_true.mpr h]
  rfl

variable (aligned : ¬ Misaligned s m kind.size align)
include aligned

theorem checkData_mpn (zero : modeEa s m = 0) : checkData s m kind = .error (.trap .mpn) := by
  rw [checkData, Bool.eq_false_iff.mpr (mt memTrap_eq_true.mp within), ha,
    Bool.eq_false_iff.mpr (mt misaligned_eq_true.mp aligned), decide_eq_true zero]
  rfl

theorem addressOk_of_not (nonzero : modeEa s m ≠ 0) : AddressOk s m kind where
  segment := Bool.eq_false_iff.mpr (mt memTrap_eq_true.mp within)
  circular := Bool.eq_false_iff.mpr fun h => aligned (.inl (circMisaligned_eq_true.mp h))
  aligned := ha ▸ Decidable.not_not.mp fun h => aligned (.inr h)
  nonzero := nonzero

end checkData

/-! ### The instructions -/

section exec
variable {i : Instr} {x : DataAccess} {s : State} (hx : dataAccess i = some x)
include hx

/-- An odd register pair is OPD, before any other check (60 R691, D12). -/
theorem exec_dataAccess_opd (h : x.odd = true ∨ modeOddPair x.mode = true) : exec i s = .next (enterTrap 2 3 s.pc s) := by
  obtain ⟨f, he, -⟩ := exec_dataAccess i x s hx
  rw [he, (Bool.or_eq_true _ _).mpr h]
  rfl

/-- A write of a global address register without permission is GRWP, before the access (60 R684). -/
theorem exec_dataAccess_grwp (ho : x.odd = false) (hm : modeOddPair x.mode = false)
    (h : x.global = true ∨ modeWritesGlobal x.mode = true) (hg : pswGw s.psw = false) :
    exec i s = .next (enterTrap 1 7 s.pc s) := by
  obtain ⟨f, he, -⟩ := exec_dataAccess i x s hx
  have denied : grwp s (x.global || modeWritesGlobal x.mode) = .error (.trap .grwp) := by
    rw [(Bool.or_eq_true _ _).mpr h, grwp, hg]
    rfl
  rw [he, ho, hm, denied]
  rfl

/-- Steps 1 to 3 of 20_memory R175: MEM, then ALN, then MPN, else the address is in order. -/
theorem exec_dataAccess_address {align : Nat} (hr : RegistersOk s x) (ha : alignOf s x.kind (modeEa s x.mode) = align) :
    (CrossesSegment s x.mode x.kind.size → exec i s = .next (enterTrap 2 5 s.pc s)) ∧
    (¬ CrossesSegment s x.mode x.kind.size → Misaligned s x.mode x.kind.size align →
      exec i s = .next (enterTrap 2 4 s.pc s)) ∧
    (¬ CrossesSegment s x.mode x.kind.size → ¬ Misaligned s x.mode x.kind.size align → modeEa s x.mode = 0 →
      exec i s = .next (enterTrap 1 6 s.pc s)) ∧
    (¬ CrossesSegment s x.mode x.kind.size → ¬ Misaligned s x.mode x.kind.size align → modeEa s x.mode ≠ 0 →
      AddressOk s x.mode x.kind) :=
  ⟨fun h => exec_of_checkData_trap .mem hx hr (checkData_mem h),
    fun within h => exec_of_checkData_trap .aln hx hr (checkData_aln within ha h),
    fun within aligned zero => exec_of_checkData_trap .mpn hx hr (checkData_mpn within ha aligned zero),
    fun within aligned nonzero => addressOk_of_not within ha aligned nonzero⟩

end exec

/-- Settles O17: the guards of the registers, then the address with the alignment of each instruction. -/
theorem dataAccessTrapsInOrder : Obligations.DataAccessTrapsInOrder := by
  unfold Obligations.DataAccessTrapsInOrder
  intro i x s hx
  refine ⟨exec_dataAccess_opd hx, exec_dataAccess_grwp hx, fun hr => ?_⟩
  have address {align : Nat} := exec_dataAccess_address (align := align) hx hr
  have single := alignOf_of_single (kind := x.kind) s (modeEa s x.mode)
  cases i <;> simp only [dataAccess, Option.some.injEq, reduceCtorEq] at hx <;> subst hx
  case ldD | stD =>
    exact ⟨fun half => ⟨rfl, address (alignOf_of_halfWord rfl half)⟩,
      fun not_half => ⟨rfl, address (alignOf_of_not_halfWord not_half)⟩⟩
  all_goals exact ⟨rfl, address (single rfl)⟩

end Sys2Proof.Machine
end

section
/-!
PROOFS. The traps of an instruction fetch (20_memory R176, 21 R204, R209, R242 to R245, 60 R700): the first failure of the
translation, of the range protection and of each half-word, then that failure as the outcome of a step.
-/
namespace Sys2Proof.Machine

/-! ### One half-word -/

/-- A fetch at an address that its TTE or the User-0 rule denies (21 R242, R245). -/
def FetchDenied (s : State) (va : Word) : Prop :=
  (usesPte s va = true ∧ ∃ t, lookupTte s va = some t ∧ t.xe = false) ∨
    (virtualMode s = true ∧ va.getLsbD 31 = true ∧ isUser0 s = true ∧ attrOf s va ≠ .peripheral)

/-- The translation of a half-word's address, with the checks of a fetch (20_memory R176). -/
def translateFetch (s : State) (va : Word) : Except Stop (List Word) := translateAll s s.pc [va] true false false

section half
variable {s : State} {va : Word}

theorem fetchDenied_iff :
    FetchDenied s va ↔ pteDenies s va true false false = true ∨ upperDenied s va = true := by
  rw [upperDenied_eq_true, pteDenies_eq_true, FetchDenied]
  simp

/-- An upper address needs no TTE (21 R200). -/
theorem usesPte_of_upper (h : va.getLsbD 31 = true) : usesPte s va = false := by
  rw [usesPte, h, Bool.not_true, Bool.and_false]

theorem translateFetch_vaf (hu : usesPte s va = true) (hl : lookupTte s va = none) :
    translateFetch s va = .error (.trap (.vaf s.pc)) :=
  translateAll_vaf s.pc _ _ _ (List.mem_singleton_self va) hu hl

/-- A denied address is mapped: the TTE that denies it is there, and an upper one needs none. -/
theorem translateFetch_vap (h : FetchDenied s va) : translateFetch s va = .error (.trap (.vap s.pc)) := by
  refine translateAll_vap s.pc (fun b hb hu => ?_) (List.mem_singleton_self va) (fetchDenied_iff.mp h)
  obtain rfl := List.mem_singleton.mp hb
  rcases h with ⟨-, t, found, -⟩ | ⟨-, upper, -⟩
  · exact found ▸ nofun
  · exact nomatch (usesPte_of_upper upper).symm.trans hu

theorem translateFetch_ok {pa : Word} (hp : physOf s va = some pa) (hd : ¬ FetchDenied s va)
    (page : usesPte s va = true → attrOf s pa ≠ .peripheral) : translateFetch s va = .ok [pa] := by
  rw [fetchDenied_iff, not_or, Bool.not_eq_true, Bool.not_eq_true] at hd
  refine (translateAll_eq_ok ..).mpr ⟨?_, ?_, ?_, ?_⟩
  · exact List.forall_mem_singleton.mpr (Option.isSome_of_eq_some hp)
  · exact List.forall_mem_singleton.mpr hd
  · refine List.forall_mem_singleton.mpr fun hu q hq => ?_
    obtain rfl := Option.some.inj (hp.symm.trans hq)
    exact decide_eq_false (page hu)
  · rw [List.map_singleton, hp, Option.getD_some]

theorem fetchError_iff {pa : Word} : (fetchError s pa || fetchError s (pa + 1)) = true ↔ FetchError s pa := by
  simp [fetchError, FetchError, addrs, hasF, List.range_succ]

theorem fetchHalf_of_error {e : Stop} (h : translateFetch s va = .error e) : fetchHalf s va = .error e := by
  rw [translateFetch] at h
  rw [fetchHalf, h]
  rfl

/-- A translated half-word leaves the checks on its two bytes. -/
theorem fetchHalf_of_ok {pa : Word} (h : translateFetch s va = .ok [pa]) :
    fetchHalf s va = (raiseIf (fetchError s pa || fetchError s (pa + 1)) .pse >>= fun _ =>
      .ok [s.memByte pa, s.memByte (pa + 1)]) := by
  rw [translateFetch] at h
  rw [fetchHalf, h]
  rfl

theorem fetchHalf_pse {pa : Word} (h : translateFetch s va = .ok [pa]) (bad : FetchError s pa) :
    fetchHalf s va = .error (.trap .pse) := by
  rw [fetchHalf_of_ok h, fetchError_iff.mpr bad]
  rfl

theorem fetchHalf_ok {pa : Word} (h : translateFetch s va = .ok [pa]) (good : ¬ FetchError s pa) :
    fetchHalf s va = .ok [s.memByte pa, s.memByte (pa + 1)] := by
  rw [fetchHalf_of_ok h, Bool.eq_false_iff.mpr (mt fetchError_iff.mp good)]
  rfl

end half

/-! ### The fetch -/

section fetch
variable {s : State} {pa : Word}

theorem fetch_of_translateFetch {e : Stop} (h : translateFetch s s.pc = .error e) : fetch s = .error e := by
  rw [translateFetch] at h
  rw [fetch, h]
  rfl

/-- Some code range of the implementation holds the address and lets it execute (21 R203, R204). -/
def CodeRangeAllows (s : State) (a : Word) : Prop :=
  ∃ n : Fin 4, n.val < s.platform.nCodeRanges ∧ (protSet s).cprL[n] ≤ a ∧ a < (protSet s).cprU[n] ∧
    (protSet s).cpm.getLsbD (8 * n.val + 7) = true

theorem execOk_eq_true {a : Word} : execOk s a = true ↔ CodeRangeAllows s a := by
  simp [execOk, codeRanges, inCode, modeBit, CodeRangeAllows, and_assoc]

/-- A translated pc that the range protection is asked about and no code range allows is MPX. -/
theorem fetch_mpx (translated : translateFetch s s.pc = .ok [pa]) (checked : headChecked s s.pc = true)
    (setThere : protSetMissing s = false) (denied : ¬ CodeRangeAllows s s.pc) : fetch s = .error (.trap .mpx) := by
  have no_range : execOk s s.pc = false := Bool.eq_false_iff.mpr (mt execOk_eq_true.mp denied)
  rw [translateFetch] at translated
  rw [fetch, translated, ok_bind, fetchProtect, checked, setThere, no_range]
  rfl

/-- Past translation and range protection a fetch reads its first half-word, and its second where the instruction has one. -/
theorem fetch_of_ok (translated : translateFetch s s.pc = .ok [pa])
    (range : headChecked s s.pc = true → protSetMissing s = false ∧ execOk s s.pc = true) :
    fetch s = (do
      let lo ← fetchHalf s s.pc
      if isShort (lo.headD 0) then .ok lo
      else do
        let hi ← fetchHalf s (s.pc + 2)
        .ok (lo ++ hi)) := by
  have passed : fetchProtect s s.pc = .ok () := by
    cases checked : headChecked s s.pc with
    | false => simp [fetchProtect, checked]
    | true =>
      obtain ⟨setThere, allowed⟩ := range checked
      simp [fetchProtect, setThere, allowed]
  rw [translateFetch] at translated
  rw [fetch, translated, passed]
  rfl

theorem FetchOk.not_denied (h : FetchOk s) : ¬ FetchDenied s s.pc := by
  rintro (⟨hu, t, found, no_exec⟩ | ⟨virtual, upper, user, memory⟩)
  · obtain ⟨t', found', exec, -⟩ := h.mapped hu
    obtain rfl := Option.some.inj (found.symm.trans found')
    exact nomatch no_exec.symm.trans exec
  · exact memory (h.upper virtual upper user)

theorem FetchOk.translateFetch (h : FetchOk s) (hp : physOf s s.pc = some pa) :
    Machine.translateFetch s s.pc = .ok [pa] := by
  refine translateFetch_ok hp h.not_denied fun hu => ?_
  obtain ⟨t, found, -, memory⟩ := h.mapped hu
  rw [physOf, if_pos hu, found, Option.map_some, Option.some.injEq] at hp
  exact hp ▸ memory

theorem fetch_pse (h : FetchOk s) (hp : physOf s s.pc = some pa) (bad : FetchError s pa) : fetch s = .error (.trap .pse) := by
  rw [fetch_of_ok (h.translateFetch hp) h.range, fetchHalf_pse (h.translateFetch hp) bad]
  rfl

/-- A 32-bit instruction whose first half-word is in order stops where its second half-word does (30 R300). -/
theorem fetch_second {e : Stop} (h : FetchOk s) (hp : physOf s s.pc = some pa) (good : ¬ FetchError s pa)
    (long : (s.memByte pa).getLsbD 0 = true) (second : fetchHalf s (s.pc + 2) = .error e) : fetch s = .error e := by
  have not_short : isShort (s.memByte pa) = false := by rw [isShort, long]; rfl
  rw [fetch_of_ok (h.translateFetch hp) h.range, fetchHalf_ok (h.translateFetch hp) good, ok_bind, List.headD_cons, not_short,
    second]
  rfl

end fetch

/-- Settles O6: each failure of the fetch at the boundary's state, which is the one before it but for ICR and the inputs. -/
theorem fetchTraps : Obligations.FetchTraps := by
  unfold Obligations.FetchTraps
  intro s quiet off trap paged denied
  have stopped {e : Stop} (h : fetch s.atBoundary = .error e) : step s = finish s.atBoundary (.error e) := by
    rw [step_of_off quiet off, h]
    rfl
  refine ⟨fun hu hl => ?_, fun hd => ?_, fun direct upper memory outside proten setThere no_range => ?_,
    fun pa ok hp => ⟨fun bad => ?_, fun good long => ⟨fun hu hl => ?_, fun hd => ?_, fun pa' hp' hd page bad => ?_⟩⟩⟩
  · exact stopped (fetch_of_translateFetch (translateFetch_vaf hu hl))
  · exact stopped (fetch_of_translateFetch (translateFetch_vap hd))
  · have not_denied : ¬ FetchDenied s s.pc := by
      rintro (⟨hu, -⟩ | ⟨virtual, -, user, -⟩)
      · exact nomatch direct.symm.trans hu
      · exact nomatch (upper virtual).symm.trans user
    have here : physOf s s.pc = some s.pc := by rw [physOf, direct]; rfl
    have checked : headChecked s s.pc = true := (headChecked_eq_true proten).mpr ⟨direct, memory, outside⟩
    have translated : translateFetch s s.pc = .ok [s.pc] := translateFetch_ok here not_denied fun _ => memory
    exact stopped (fetch_mpx (s := s.atBoundary) translated checked setThere fun ⟨n, there, low, high, allows⟩ =>
      no_range n there ⟨low, high, allows⟩)
  all_goals have ok' : FetchOk s.atBoundary := { ok with }
  · exact stopped (fetch_pse ok' hp bad)
  · exact stopped (fetch_second ok' hp good long (fetchHalf_of_error (translateFetch_vaf hu hl)))
  · exact stopped (fetch_second ok' hp good long (fetchHalf_of_error (translateFetch_vap hd)))
  · exact stopped (fetch_second ok' hp good long (fetchHalf_pse (translateFetch_ok hp' hd page) bad))

end Sys2Proof.Machine
end

section
/-!
PROOFS. The causes of the stops of an instruction (20_memory R150, 11 R81, 61 R748; log 24, log 37 to log 40): for each part of a
meaning the faults and refusals it can end in, then every instruction.
-/
namespace Sys2Proof.Machine

/-! ### Parts of a meaning and what they stop for -/

/-- A part of a meaning stops for cause: a fault it ends in satisfies `F`, a refusal `R`. Traps, FCU entries and debug actions
are no stops. -/
def StopsFor {α : Type} (F : Fault → Prop) (R : Refusal → Prop) : Except Stop α → Prop
  | .error (.fault f) => F f
  | .error (.refuse r) => R r
  | .ok _ | .error (.trap _) | .error .fcu | .error (.debugged _) => True

/-- An outcome stops for cause. -/
def EndsFor (F : Fault → Prop) (R : Refusal → Prop) : Host.Outcome State Fault Refusal → Prop
  | .next _ => True
  | .fault f => F f
  | .refused r => R r

/-- No fault, or no refusal. -/
def Never {ρ : Type} (_ : ρ) : Prop := False

theorem endsFor_iff {F : Fault → Prop} {R : Refusal → Prop} {o : Host.Outcome State Fault Refusal} :
    EndsFor F R o ↔ (∀ f, o = .fault f → F f) ∧ ∀ r, o = .refused r → R r := by
  cases o with
  | next t => exact ⟨fun _ => ⟨nofun, nofun⟩, fun _ => trivial⟩
  | fault f => exact ⟨fun h => ⟨by rintro _ ⟨⟩; exact h, nofun⟩, fun h => h.1 f rfl⟩
  | refused r => exact ⟨fun h => ⟨nofun, by rintro _ ⟨⟩; exact h⟩, fun h => h.2 r rfl⟩

section stopsFor

variable {α β : Type} {F F' : Fault → Prop} {R R' : Refusal → Prop}

/-- What a part of a meaning stops with does not depend on what it would have answered. -/
theorem StopsFor.stop {e : Stop} (h : StopsFor F R (.error e : Except Stop α)) :
    StopsFor F R (.error e : Except Stop β) := by
  cases e <;> exact h

theorem StopsFor.bind {x : Except Stop α} {f : α → Except Stop β} (hx : StopsFor F R x)
    (hf : ∀ a, x = .ok a → StopsFor F R (f a)) : StopsFor F R (x >>= f) := by
  cases x with
  | ok a => exact hf a rfl
  | error e => exact hx.stop

/-- A last part that always answers. -/
theorem StopsFor.bind_ok {x : Except Stop α} {f : α → Except Stop β} (hx : StopsFor F R x)
    (hf : ∀ a, ∃ b, f a = .ok b) : StopsFor F R (x >>= f) :=
  hx.bind fun a _ => by
    obtain ⟨b, answers⟩ := hf a
    rw [answers]
    exact trivial

theorem StopsFor.mono {x : Except Stop α} (hx : StopsFor F R x) (hF : ∀ f, F f → F' f) (hR : ∀ r, R r → R' r) :
    StopsFor F' R' x := by
  match x, hx with
  | .error (.fault f), hx => exact hF f hx
  | .error (.refuse r), hx => exact hR r hx
  | .ok _, _ | .error (.trap _), _ | .error .fcu, _ | .error (.debugged _), _ => exact trivial

theorem EndsFor.mono {o : Host.Outcome State Fault Refusal} (ho : EndsFor F R o) (hF : ∀ f, F f → F' f)
    (hR : ∀ r, R r → R' r) : EndsFor F' R' o := by
  cases o with
  | next => exact trivial
  | fault f => exact hF f ho
  | refused r => exact hR r ho

theorem StopsFor.finish {s : State} {r : Res} (h : StopsFor F R r) : EndsFor F R (Machine.finish s r) := by
  match r, h with
  | .error (.fault f), h | .error (.refuse f), h => exact h
  | .ok _, _ | .error (.trap _), _ | .error .fcu, _ | .error (.debugged _), _ => exact trivial

/-! ### The guards -/

theorem stopsFor_raiseIf (b : Bool) (t : Trap) : StopsFor F R (raiseIf b t) := by cases b <;> exact trivial

theorem stopsFor_stopIf_fcu (b : Bool) : StopsFor F R (stopIf b .fcu) := by cases b <;> exact trivial

theorem stopsFor_stopIf_fault {b : Bool} {f : Fault} (h : b = true → F f) : StopsFor F R (stopIf b (.fault f)) := by
  cases b with
  | false => exact trivial
  | true => exact h rfl

theorem stopsFor_stopIf_refuse {b : Bool} {r : Refusal} (h : b = true → R r) : StopsFor F R (stopIf b (.refuse r)) := by
  cases b with
  | false => exact trivial
  | true => exact h rfl

theorem stopsFor_mmuPrologue (s : State) : StopsFor F R (mmuPrologue s) :=
  (stopsFor_raiseIf _ _).bind fun _ _ => stopsFor_raiseIf _ _

theorem stopsFor_saveOrFcu (upper : Bool) (s : State) : StopsFor F R (saveOrFcu upper s) := by
  unfold saveOrFcu
  split <;> exact trivial

end stopsFor

/-! ### Translation and data accesses -/

/-- A TTE translates the address into peripheral space (20_memory R150, log 38). -/
def PeripheralPage (s : State) (va : Word) : Prop :=
  usesPte s va = true ∧ ∃ e, lookupTte s va = some e ∧ attrOf s (e.translate va) = .peripheral

theorem peripheralPage_iff {s : State} {va : Word} :
    (usesPte s va && (physOf s va).any fun pa => hasP (attrOf s pa)) = true ↔ PeripheralPage s va := by
  rw [Bool.and_eq_true, PeripheralPage]
  refine and_congr_right fun hu => ?_
  rw [physOf, if_pos hu, Option.any_map, Option.any_eq_true]
  exact exists_congr fun e => and_congr_right fun _ => decide_eq_true_iff

theorem stopsFor_translateAll {F : Fault → Prop} {R : Refusal → Prop} {s : State} {vas : List Word} (ea : Word) (x r w : Bool)
    (h : ∀ va ∈ vas, PeripheralPage s va → F .peripheralPage) : StopsFor F R (translateAll s ea vas x r w) := by
  refine (stopsFor_raiseIf _ _).bind fun _ _ => (stopsFor_raiseIf _ _).bind fun _ _ =>
    (stopsFor_stopIf_fault fun found => ?_).bind fun _ _ => trivial
  obtain ⟨va, mem, page⟩ := List.any_eq_true.mp found
  exact h va mem (peripheralPage_iff.mp page)

/-- PSW.PRS names no set there is while an address of `heads` is one that the ranges are asked about (11 R70, log 37). -/
def SetMissing (s : State) (heads : List Word) : Prop :=
  sysProten s.syscon = true ∧ s.platform.nProtSets ≤ (pswPrs s.psw).toNat ∧ ∃ a ∈ heads, headChecked s a = true

theorem setMissing_of_guard {s : State} {heads : List Word}
    (h : (heads.any (headChecked s) && protSetMissing s) = true) : SetMissing s heads := by
  obtain ⟨checked, missing⟩ := (Bool.and_eq_true _ _).mp h
  obtain ⟨a, mem, asked⟩ := List.any_eq_true.mp checked
  refine ⟨?_, of_decide_eq_true missing, a, mem, asked⟩
  rw [headChecked, rangeChecked, Bool.and_eq_true, Bool.and_eq_true, Bool.and_eq_true] at asked
  exact asked.2.1.1

/-- A byte among `pas` lies in the CSFR window (D13, log 24). -/
def WindowRefusal (s : State) (pas : List Word) (r : Refusal) : Prop :=
  r = .csfrAccess ∧ ∃ pa ∈ pas, inCsfrWindow s pa = true

/-- The faults of a data access. -/
def AccessFault (s : State) (x : DataAccess) : Fault → Prop
  | .missingProtectionSet => SetMissing s (modeHeads s x.mode x.kind.size)
  | .peripheralPage => ∃ va ∈ modeBytes s x.mode x.kind.size, PeripheralPage s va
  | .mmuSwitchUndefined | .debugAreaUndefined => False

theorem stopsFor_checkData (s : State) (x : DataAccess) :
    StopsFor (AccessFault s x) (WindowRefusal s (accessAddrs s x.mode x.kind.size)) (checkData s x.mode x.kind) := by
  refine (stopsFor_raiseIf _ _).bind fun _ _ => (stopsFor_raiseIf _ _).bind fun _ _ => (stopsFor_raiseIf _ _).bind fun _ _ =>
    (stopsFor_translateAll _ _ _ _ fun va mem page => ⟨va, mem, page⟩).bind fun pas translated =>
    (stopsFor_stopIf_fault setMissing_of_guard).bind fun _ _ => (stopsFor_raiseIf _ _).bind fun _ _ =>
    (stopsFor_raiseIf _ _).bind fun _ _ => (stopsFor_raiseIf _ _).bind fun _ _ =>
    (stopsFor_stopIf_refuse fun found => ⟨rfl, ?_⟩).bind fun _ _ => (stopsFor_raiseIf _ _).bind fun _ _ => trivial
  obtain ⟨-, -, -, rfl⟩ := (translateAll_eq_ok ..).mp translated
  exact List.any_eq_true.mp found

theorem endsFor_dataAccess {i : Instr} {x : DataAccess} (s : State) (hx : dataAccess i = some x) :
    EndsFor (AccessFault s x) (WindowRefusal s (accessAddrs s x.mode x.kind.size)) (exec i s) := by
  obtain ⟨f, he, answers⟩ := exec_dataAccess i x s hx
  rw [he]
  exact StopsFor.finish ((stopsFor_raiseIf _ _).bind fun _ _ => (stopsFor_raiseIf _ _).bind fun _ _ =>
    (stopsFor_checkData s x).bind_ok answers)

/-! ### Contexts -/

theorem stopsFor_checkCsa {F : Fault → Prop} (s : State) (ea : Word) (reads : Bool) :
    StopsFor F (WindowRefusal s (addrs ea 64)) (checkCsa s ea reads) :=
  (stopsFor_raiseIf _ _).bind fun _ _ =>
  (stopsFor_stopIf_refuse fun found => ⟨rfl, List.any_eq_true.mp found⟩).bind fun _ _ => stopsFor_raiseIf _ _

theorem stopsFor_checkCtx {F : Fault → Prop} (s : State) (m : Mode) (reads : Bool) :
    StopsFor F (WindowRefusal s (addrs (modeEa s m) 64)) (checkCtx s m reads) :=
  (stopsFor_raiseIf _ _).bind fun _ _ => (stopsFor_raiseIf _ _).bind fun _ _ => (stopsFor_raiseIf _ _).bind fun _ _ =>
  (stopsFor_checkCsa s _ reads).bind fun _ _ => trivial

theorem stopsFor_restore {F : Fault → Prop} (upper : Bool) (s : State) :
    StopsFor F (WindowRefusal s (addrs (csaEa (ctxPtr s.pcxi)) 64)) (restore upper s) :=
  (stopsFor_raiseIf _ _).bind fun _ _ => (stopsFor_checkCsa s _ true).bind fun _ _ => trivial

/-- A return passes its guards, restores the upper context and always ends after that. -/
theorem stopsFor_returns {F : Fault → Prop} (s : State) :
    StopsFor F (WindowRefusal s (addrs (csaEa (ctxPtr s.pcxi)) 64)) (returnFromCall s) ∧
    StopsFor F (WindowRefusal s (addrs (csaEa (ctxPtr s.pcxi)) 64)) (returnFromException s) := by
  constructor <;>
    exact (stopsFor_raiseIf _ _).bind fun _ _ => (stopsFor_raiseIf _ _).bind fun _ _ =>
      (stopsFor_raiseIf _ _).bind fun _ _ => (stopsFor_restore true s).bind fun _ _ => trivial

/-! ### Debug events -/

/-- The stop of a debug event: a breakpoint trap whose area is not memory (61 R748, log 40). -/
def EventFault (e : DebugEvent) (s : State) (f : Fault) : Prop := f = .debugAreaUndefined ∧ DebugAreaBad e s

theorem stopsFor_debugEvent (e : DebugEvent) (s : State) : StopsFor (EventFault e s) Never (debugEvent e s) := by
  unfold debugEvent
  dsimp only
  split
  · exact trivial
  · split
    · exact trivial
    · split
      next trap =>
        split
        next bad =>
          obtain ⟨pa, mem, device⟩ := List.any_eq_true.mp bad
          exact ⟨rfl, trap, fun area => by simp [area pa mem] at device⟩
        next => exact trivial
      next => exact trivial

/-- Nothing that tells memory at DCX from a device differs between two states. -/
structure SameArea (s t : State) : Prop where
  platform : t.platform = s.platform
  dbgsr : t.dbgsr = s.dbgsr
  dcx : t.dcx = s.dcx
  nodes : t.cpuSrc = s.cpuSrc ∧ t.sbSrc = s.sbSrc ∧ t.extraSrc = s.extraSrc

theorem SameArea.refl (s : State) : SameArea s s := ⟨rfl, rfl, rfl, rfl, rfl, rfl⟩

theorem DebugAreaBad.of_sameArea {e : DebugEvent} {s t : State} (h : DebugAreaBad e t) (same : SameArea s t) :
    DebugAreaBad e s := by
  obtain ⟨trap, bad⟩ := h
  obtain ⟨platform, dbgsr, dcx, cpu, sb, extra⟩ := same
  refine ⟨trap, fun area => bad fun pa mem => ?_⟩
  rw [plainMemory_congr platform (congrArg dbgDe dbgsr) cpu sb extra pa]
  exact area pa (dcx ▸ mem)

/-- An instruction with a debug event of its own stops for the event, with the controller on, or as its body does: at its own
state, or at what an event before it that goes on left there. -/
theorem endsFor_withEvent {F : Fault → Prop} {R : Refusal → Prop} {e : DebugEvent} {body : State → Res} {s : State}
    (area : dbgDe s.dbgsr = true → DebugAreaBad e s → F .debugAreaUndefined)
    (stops : ∀ w b n, StopsFor F R (body { s with dbgsr := w, breakOuts := b, sbSrc := n }))
    (keeps : evtEnabled s e.reg = true → ∀ t, body s = .ok t → SameArea s t) : EndsFor F R (withEvent e body s) := by
  have stops_here : StopsFor F R (body s) := stops s.dbgsr s.breakOuts s.sbSrc
  by_cases off : EventOff s e
  · rw [withEvent_of_off off]
    exact stops_here.finish
  have on : dbgDe s.dbgsr = true := Bool.not_eq_false _ ▸ fun h => off (.inl h)
  have enabled : evtEnabled s e.reg = true := Bool.not_eq_false _ ▸ fun h => off (.inr h)
  cases before : evtBbm e.reg with
  | true =>
    rcases debugEvent_cases enabled with ⟨t, ok, -⟩ | ⟨stopped, bad⟩
    · by_cases diverts : Diverts e
      · rw [withEvent_before_diverts on enabled before ok diverts]
        exact trivial
      · rw [withEvent_before_goesOn on enabled before ok diverts]
        obtain ⟨w, b, n, rfl⟩ := debugEvent_goesOn enabled ok diverts
        exact (stops w b n).finish
    · rw [withEvent_before_stops on enabled before stopped]
      exact area on bad
  | false =>
    rw [withEvent_after on enabled before]
    refine StopsFor.finish (stops_here.bind fun t ok => (stopsFor_debugEvent e t).mono ?_ nofun)
    rintro f ⟨rfl, bad⟩
    exact area on (bad.of_sameArea (keeps enabled t ok))

/-! ### MTCR -/

/-- A write of a register that is no debug register leaves the debug area as it is. -/
theorem sameArea_csfrWrite {s : State} {r : Csfr} (v : Word) (h : r.isDebug = false) : SameArea s (csfrWrite s r v) := by
  cases r with
  | biv | btv | isp | mmuCon | mmuAsi =>
    dsimp only [csfrWrite]
    split <;> exact { SameArea.refl s with }
  | dbgsr | exevt | crevt | swevt | trEvt | dms | dcx => cases h
  | _ => exact { SameArea.refl s with }

/-- The event of an MFCR or MTCR is enabled only where the register is no debug register (61 R733). -/
theorem not_debug_of_evtEnabled {s : State} {off : BitVec 16} {r : Csfr}
    (enabled : evtEnabled s (crEvent s off).reg = true) (reg : csfrOf s.platform off = some r) : r.isDebug = false := by
  cases debug : r.isDebug with
  | false => rfl
  | true =>
    rw [crEvent, reg, Option.any_some, debug] at enabled
    cases enabled

theorem sameArea_mtcrEffect {s : State} {off : BitVec 16} (v : Word) (enabled : evtEnabled s (crEvent s off).reg = true) :
    SameArea s (mtcrEffect s off v) := by
  unfold mtcrEffect
  split
  next r reg => exact sameArea_csfrWrite v (not_debug_of_evtEnabled enabled reg)
  next => exact SameArea.refl s

/-- An MTCR of MMU_CON that switches translation off under an address that is not identity mapped (11 R81, log 39). -/
def MmuSwitch (i : Instr) (s : State) : Prop :=
  ∃ len a, i = .mtcr len 0x8000 a ∧ isSupervisor s = true ∧ mmuV s.mmuCon = true ∧ (s.dr a).getLsbD 0 = false ∧
    usesPte s s.pc = true ∧ physOf s s.pc ≠ some s.pc

/-- Code that a TTE translates runs with translation on, so a switch turns it off. -/
theorem mmuSwitch_of_bad {s : State} {len : Len} {off : BitVec 16} {a : DReg} (supervisor : isSupervisor s = true)
    (bad : mmuSwitchBad s off (s.dr a) = true) : MmuSwitch (.mtcr len off a) s := by
  simp only [mmuSwitchBad, Bool.and_eq_true, decide_eq_true_eq] at bad
  obtain ⟨⟨⟨⟨rfl, -⟩, switches⟩, translated⟩, moved⟩ := bad
  have on : mmuV s.mmuCon = true := by
    rw [usesPte, virtualMode, Bool.and_eq_true, Bool.and_eq_true] at translated
    exact translated.1.1
  refine ⟨len, a, rfl, supervisor, on, ?_, translated, moved⟩
  rwa [on, Bool.true_xor, Bool.not_eq_true'] at switches

/-! ### Every instruction -/

/-- The cause of each fault of an instruction (log 37 to log 40). -/
def InstrFault (i : Instr) (s : State) : Fault → Prop
  | .missingProtectionSet => sysProten s.syscon = true ∧ s.platform.nProtSets ≤ (pswPrs s.psw).toNat ∧
      ∃ x, dataAccess i = some x ∧ ∃ a ∈ modeHeads s x.mode x.kind.size, headChecked s a = true
  | .peripheralPage => ∃ x, dataAccess i = some x ∧ ∃ va ∈ modeBytes s x.mode x.kind.size, PeripheralPage s va
  | .mmuSwitchUndefined => MmuSwitch i s
  | .debugAreaUndefined => dbgDe s.dbgsr = true ∧ ¬ AllMemory s (addrs s.dcx 16) ∧
      ∃ e, ownEvent s i = some e ∧ evtEvta e.reg = 3

/-- The cause of a refusal of an instruction: the CSFR window, reached by a data access, a restore, or a context load or store
(log 24). -/
def InstrRefusal (i : Instr) (s : State) (r : Refusal) : Prop :=
  r = .csfrAccess ∧
    ((∃ x, dataAccess i = some x ∧ ∃ pa ∈ accessAddrs s x.mode x.kind.size, inCsfrWindow s pa = true) ∨
    (∃ len, (i = .ret len ∨ i = .rfe len ∨ i = .rslcx len) ∧
      ∃ pa ∈ addrs (csaEa (ctxPtr s.pcxi)) 64, inCsfrWindow s pa = true) ∨
    (∃ len m, (i = .stlcx len m ∨ i = .stucx len m ∨ i = .ldlcx len m ∨ i = .lducx len m) ∧
      ∃ pa ∈ addrs (modeEa s (ctxMode m)) 64, inCsfrWindow s pa = true))

section causes

variable {i : Instr} {s : State}

theorem InstrFault.of_access {x : DataAccess} (hx : dataAccess i = some x) {f : Fault} (h : AccessFault s x f) :
    InstrFault i s f := by
  cases f with
  | missingProtectionSet =>
    obtain ⟨proten, missing, asked⟩ := h
    exact ⟨proten, missing, x, hx, asked⟩
  | peripheralPage => exact ⟨x, hx, h⟩
  | mmuSwitchUndefined | debugAreaUndefined => cases h

theorem InstrRefusal.of_access {x : DataAccess} (hx : dataAccess i = some x) {r : Refusal}
    (h : WindowRefusal s (accessAddrs s x.mode x.kind.size) r) : InstrRefusal i s r :=
  ⟨h.1, .inl ⟨x, hx, h.2⟩⟩

theorem InstrRefusal.of_restore {len : Len} (hi : i = .ret len ∨ i = .rfe len ∨ i = .rslcx len) {r : Refusal}
    (h : WindowRefusal s (addrs (csaEa (ctxPtr s.pcxi)) 64) r) : InstrRefusal i s r :=
  ⟨h.1, .inr (.inl ⟨len, hi, h.2⟩)⟩

theorem InstrRefusal.of_context {len : Len} {m : CtxMode}
    (hi : i = .stlcx len m ∨ i = .stucx len m ∨ i = .ldlcx len m ∨ i = .lducx len m) {r : Refusal}
    (h : WindowRefusal s (addrs (modeEa s (ctxMode m)) 64) r) : InstrRefusal i s r :=
  ⟨h.1, .inr (.inr ⟨len, m, hi, h.2⟩)⟩

theorem InstrFault.of_event {e : DebugEvent} (he : ownEvent s i = some e) (on : dbgDe s.dbgsr = true)
    (h : DebugAreaBad e s) : InstrFault i s .debugAreaUndefined :=
  ⟨on, h.2, e, he, h.1⟩

/-- A context load or store stops in its checks alone. -/
theorem endsFor_context {len : Len} {m : CtxMode} {f : List Word → Res} (reads : Bool)
    (hi : i = .stlcx len m ∨ i = .stucx len m ∨ i = .ldlcx len m ∨ i = .lducx len m) (answers : ∀ pas, ∃ t, f pas = .ok t) :
    EndsFor (InstrFault i s) (InstrRefusal i s) (finish s (checkCtx s (ctxMode m) reads >>= f)) :=
  StopsFor.finish (((stopsFor_checkCtx s (ctxMode m) reads).mono (fun _ => id) fun _ => .of_context hi).bind_ok answers)

end causes

/-- An instruction stops for the causes of its parts: those without a data access, a context or an event of their own have no part
that stops. -/
theorem exec_endsFor (i : Instr) (s : State) : EndsFor (InstrFault i s) (InstrRefusal i s) (exec i s) := by
  cases hx : dataAccess i with
  | some x => exact (endsFor_dataAccess s hx).mono (fun _ => .of_access hx) (fun _ => .of_access hx)
  | none =>
    cases i
    case ldB | ldBu | ldH | ldHu | ldW | ldD | ldA | ldDa | stB | stH | stW | stD | stA | stDa | ldmst | swapW | stT => cases hx
    case addc | addx | rstv | eq | ne | lt | ge | clo | clz | cls | cmov | jl | nop | isync | dsync | syscall => exact trivial
    case addF | subF | mulF | divF | maddF | msubF | qseedF | cmpF | ftoi | ftou | ftoq31 | itof | q31tof | updfl | lea |
        addscA | addscAt | trapv | trapsv | enable | disable | extrU =>
      exact StopsFor.finish ((stopsFor_raiseIf _ _).bind fun _ _ => trivial)
    case call =>
      exact StopsFor.finish ((stopsFor_stopIf_fcu _).bind fun _ _ => (stopsFor_raiseIf _ _).bind fun _ _ =>
        (stopsFor_saveOrFcu true s).bind fun _ _ => trivial)
    case bisr =>
      exact StopsFor.finish ((stopsFor_raiseIf _ _).bind fun _ _ => (stopsFor_saveOrFcu false s).bind fun _ _ => trivial)
    case svlcx => exact StopsFor.finish ((stopsFor_saveOrFcu false s).bind fun _ _ => trivial)
    case ret len => exact ((stopsFor_returns s).1.mono (fun _ => id) fun _ => .of_restore (.inl rfl)).finish
    case rfe len => exact ((stopsFor_returns s).2.mono (fun _ => id) fun _ => .of_restore (.inr (.inl rfl))).finish
    case rslcx len =>
      exact StopsFor.finish ((stopsFor_raiseIf _ _).bind fun _ _ => (stopsFor_raiseIf _ _).bind fun _ _ =>
        ((stopsFor_restore false s).mono (fun _ => id) fun _ => .of_restore (.inr (.inr rfl))).bind fun _ _ => trivial)
    case stlcx => exact endsFor_context false (.inl rfl) fun _ => ⟨_, rfl⟩
    case stucx => exact endsFor_context false (.inr (.inl rfl)) fun _ => ⟨_, rfl⟩
    case ldlcx => exact endsFor_context true (.inr (.inr (.inl rfl))) fun _ => ⟨_, rfl⟩
    case lducx => exact endsFor_context true (.inr (.inr (.inr rfl))) fun _ => ⟨_, rfl⟩
    case mfcr len c off =>
      refine endsFor_withEvent (.of_event rfl) (fun _ _ _ => trivial) fun _ t ok => ?_
      obtain ⟨v, kept, ends⟩ := mfcrBody_ends len c off s
      obtain rfl : t = v := Except.ok.inj (ok.symm.trans ends)
      rw [kept]
      exact { SameArea.refl s with }
    case mtcr len off a =>
      refine endsFor_withEvent (.of_event rfl) (fun w b n => ?_) fun enabled t ok => ?_
      · refine (stopsFor_raiseIf _ _).bind fun _ allowed => (stopsFor_stopIf_fault fun bad => ?_).bind fun _ _ => trivial
        exact mmuSwitch_of_bad ((supervisorOnly_eq_ok _ _).mp allowed) bad
      · obtain ⟨_, -, rest⟩ := bind_eq_ok.mp ok
        obtain ⟨_, -, done⟩ := bind_eq_ok.mp rest
        cases done
        exact { sameArea_mtcrEffect (s.dr a) enabled with }
    case debug len =>
      refine endsFor_withEvent (body := fun u => .ok (advance len u)) (.of_event rfl) (fun _ _ _ => trivial) ?_
      rintro - _ ⟨⟩
      exact { SameArea.refl s with }
    case rfm =>
      refine StopsFor.finish ((stopsFor_raiseIf _ _).bind fun _ _ => ?_)
      split
      · exact (stopsFor_raiseIf _ _).bind fun _ _ => trivial
      · exact trivial
    case tlbmap =>
      exact StopsFor.finish ((stopsFor_raiseIf _ _).bind fun _ _ => (stopsFor_mmuPrologue s).bind fun _ _ => trivial)
    case tlbdemap | tlbflushA | tlbflushB | tlbprobeA | tlbprobeI =>
      exact StopsFor.finish ((stopsFor_mmuPrologue s).bind fun _ _ => trivial)

end Sys2Proof.Machine
end

section
/-!
PROOFS. The causes of the stops of a fetch and of a step (20_memory R176, 60 R721, 61 R735 to R738; log 37, log 38, log 40): a
boundary adds to the stops of its fetch and its instruction those of the debug events around them.
-/
namespace Sys2Proof.Machine

/-! ### The fetch -/

/-- The cause of each fault of a fetch. -/
def FetchFault (s : State) (f : Fault) : Prop :=
  (f = .missingProtectionSet ∧ sysProten s.syscon = true ∧ s.platform.nProtSets ≤ (pswPrs s.psw).toNat ∧
    headChecked s s.pc = true) ∨
  (f = .peripheralPage ∧ ∃ va, (va = s.pc ∨ va = s.pc + 2) ∧ PeripheralPage s va)

/-- The translation of a half-word of the instruction stops for its page alone. -/
theorem stopsFor_fetchTranslation {s : State} {va : Word} (h : va = s.pc ∨ va = s.pc + 2) :
    StopsFor (FetchFault s) Never (translateAll s s.pc [va] true false false) := by
  refine stopsFor_translateAll _ _ _ _ fun b mem page => .inr ⟨rfl, b, ?_, page⟩
  rwa [List.mem_singleton.mp mem]

theorem stopsFor_fetchHalf {s : State} {va : Word} (h : va = s.pc ∨ va = s.pc + 2) :
    StopsFor (FetchFault s) Never (fetchHalf s va) :=
  (stopsFor_fetchTranslation h).bind fun _ _ => (stopsFor_raiseIf _ _).bind fun _ _ => trivial

theorem stopsFor_fetchProtect (s : State) : StopsFor (FetchFault s) Never (fetchProtect s s.pc) := by
  refine (stopsFor_stopIf_fault fun asked => .inl ⟨rfl, ?_⟩).bind fun _ _ => stopsFor_raiseIf _ _
  have head : ([s.pc].any (headChecked s) && protSetMissing s) = true := by
    rwa [List.any_cons, List.any_nil, Bool.or_false]
  obtain ⟨proten, missing, a, mem, checked⟩ := setMissing_of_guard head
  exact ⟨proten, missing, List.mem_singleton.mp mem ▸ checked⟩

theorem stopsFor_fetch (s : State) : StopsFor (FetchFault s) Never (fetch s) := by
  refine (stopsFor_fetchTranslation (.inl rfl)).bind fun _ _ => (stopsFor_fetchProtect s).bind fun _ _ =>
    (stopsFor_fetchHalf (.inl rfl)).bind fun lo _ => ?_
  split
  · exact trivial
  · exact (stopsFor_fetchHalf (.inr rfl)).bind fun _ _ => trivial

theorem fetch_not_refused (s : State) (r : Refusal) : fetch s ≠ .error (.refuse r) := by
  intro refused
  have never := stopsFor_fetch s
  rw [refused] at never
  exact never

theorem fetchFault_of_fetch {s : State} {f : Fault} (stopped : fetch s = .error (.fault f)) : FetchFault s f := by
  have cause := stopsFor_fetch s
  rwa [stopped] at cause

/-! ### One instruction and the triggers around it -/

/-- A debug event that stops a boundary does so for its area alone. -/
theorem endsFor_of_debugEvent {F : Fault → Prop} {R : Refusal → Prop} {e : DebugEvent} {s u : State} {stop : Stop}
    (stopped : debugEvent e s = .error stop) (area : DebugAreaBad e s → F .debugAreaUndefined) :
    EndsFor F R (finish u (.error stop)) := by
  have cause := stopsFor_debugEvent e s
  rw [stopped] at cause
  refine StopsFor.finish (r := .error stop) (StopsFor.mono cause.stop ?_ nofun)
  rintro f ⟨rfl, bad⟩
  exact area bad

/-- The instruction at `b` starts from `c`: from `b` itself, or from what the trigger event before it left (61 R736). -/
def Runs (b c : State) : Prop := c = b ∨ ∃ n, trigBefore b n b.pc = true ∧ debugEvent (trigEvent b n) b = .ok c

/-- The fetch at `b` gives the instruction `i`. -/
def Executes (b : State) (i : Instr) : Prop := ∃ bs, fetch b = .ok bs ∧ decodeFetched bs = .instr i

/-- What stops what is fetched at `b`: the fetch or the instruction. -/
def FetchedFault (b : State) (f : Fault) : Prop :=
  fetch b = .error (.fault f) ∨ ∃ c i, Runs b c ∧ Executes b i ∧ exec i c = .fault f

/-- What refuses at `b`: the instruction. -/
def FetchedRefusal (b : State) (r : Refusal) : Prop := ∃ c i, Runs b c ∧ Executes b i ∧ exec i c = .refused r

theorem runFetched_endsFor {b c : State} (hc : Runs b c) :
    EndsFor (FetchedFault b) (FetchedRefusal b) (runFetched c (fetch b)) := by
  cases fetched : fetch b with
  | error stop =>
    refine StopsFor.finish (r := .error stop) ?_
    cases stop with
    | fault f => exact .inl fetched
    | refuse r => exact absurd fetched (fetch_not_refused b r)
    | trap | fcu | debugged => exact trivial
  | ok bs =>
    cases decoded : decodeFetched bs with
    | instr i =>
      rw [runFetched_instr decoded, endsFor_iff]
      exact ⟨fun f faults => .inr ⟨c, i, hc, ⟨bs, fetched, decoded⟩, faults⟩,
        fun r refuses => ⟨c, i, hc, ⟨bs, fetched, decoded⟩, refuses⟩⟩
    | illegal =>
      rw [runFetched_illegal decoded]
      exact trivial
    | unimplemented =>
      rw [runFetched_unimplemented decoded]
      exact trivial
    | other =>
      rw [runFetched_other decoded]
      exact StopsFor.finish ((stopsFor_raiseIf _ _).bind fun _ _ => trivial)

/-- The event before an instruction is that of a trigger that is due (61 R738). -/
theorem firstBefore_some {s : State} {e : DebugEvent} (h : firstBefore s = some e) :
    ∃ n, trigBefore s n s.pc = true ∧ e = trigEvent s n := by
  obtain ⟨n, found, rfl⟩ := Option.map_eq_some_iff.mp h
  exact ⟨n, List.find?_some (p := fun k => trigBefore s k s.pc) found, rfl⟩

theorem firstAfter_some {s : State} {acc : List TriggerAccess} {e : DebugEvent} (h : firstAfter s acc = some e) :
    ∃ n, trigAfter s n s.pc acc = true ∧ e = trigEvent s n := by
  obtain ⟨n, found, rfl⟩ := Option.map_eq_some_iff.mp h
  exact ⟨n, List.find?_some (p := fun k => trigAfter s k s.pc acc) found, rfl⟩

/-- A trigger before the instruction at `b` stops it: its debug area is not memory. -/
def BeforeFault (b : State) (f : Fault) : Prop :=
  f = .debugAreaUndefined ∧ ∃ n, trigBefore b n b.pc = true ∧ DebugAreaBad (trigEvent b n) b

/-- A trigger after the instruction at `b` stops the step: its debug area is not memory where the instruction ended. -/
def AfterFault (b : State) (f : Fault) : Prop :=
  f = .debugAreaUndefined ∧ ∃ c u n, Runs b c ∧ runFetched c (fetch b) = .next u ∧
    trigAfter b n b.pc (((fetchedInstr (fetch b)).map (triggerAccesses b)).getD []) = true ∧ DebugAreaBad (trigEvent b n) u

/-- What stops an instruction with its triggers from the state `b`. -/
def OneFault (b : State) (f : Fault) : Prop := FetchedFault b f ∨ BeforeFault b f ∨ AfterFault b f

theorem afterTriggers_endsFor {b c : State} (hc : Runs b c) :
    EndsFor (OneFault b) (FetchedRefusal b) (afterTriggers b (fetchedInstr (fetch b)) (runFetched c (fetch b))) := by
  have fetched := (runFetched_endsFor hc).mono (F' := OneFault b) (fun _ => .inl) fun _ => id
  cases ran : runFetched c (fetch b) with
  | fault f | refused r => rwa [ran] at fetched
  | next u =>
    unfold afterTriggers
    dsimp only
    split
    · split
      next => exact trivial
      next e due =>
        obtain ⟨n, fires, rfl⟩ := firstAfter_some due
        split
        next => exact trivial
        next stop stopped =>
          exact endsFor_of_debugEvent stopped fun bad => .inr (.inr ⟨rfl, c, u, n, hc, ran, fires, bad⟩)
    · exact trivial

theorem executeOne_endsFor (s : State) : EndsFor (OneFault (spendAsi s)) (FetchedRefusal (spendAsi s)) (executeOne s) := by
  unfold executeOne
  dsimp only
  generalize spendAsi s = b
  split
  next => exact afterTriggers_endsFor (.inl rfl)
  next e due =>
    obtain ⟨n, fires, rfl⟩ := firstBefore_some (Option.ite_none_left_eq_some.mp due).2
    split
    next stop stopped => exact endsFor_of_debugEvent stopped fun bad => .inr (.inl ⟨rfl, n, fires, bad⟩)
    next c acted =>
      split
      · exact trivial
      · exact afterTriggers_endsFor (.inr ⟨n, fires, acted⟩)

/-! ### The boundary -/

theorem afterBreakIn_endsFor {F : Fault → Prop} {R : Refusal → Prop} {s : State} (h : EndsFor F R (executeOne s)) :
    EndsFor F R (afterBreakIn s) := by
  unfold afterBreakIn
  split
  · exact trivial
  · split
    · exact trivial
    · split
      · exact trivial
      · split
        · exact trivial
        · exact h

/-- What stops the step from `s`: its Break-In, or its instruction with the triggers around it (60 R721). -/
def StepFault (s : State) (f : Fault) : Prop :=
  (f = .debugAreaUndefined ∧ breakInDue s (sampled s) = true ∧ DebugAreaBad (exEvent (sampled s)) (sampled s)) ∨
    ∃ b, StartsInstruction s b ∧ OneFault b f

/-- What refuses the step from `s`: its instruction. -/
def StepRefusal (s : State) (r : Refusal) : Prop := ∃ b, StartsInstruction s b ∧ FetchedRefusal b r

theorem step_endsFor (s : State) : EndsFor (StepFault s) (StepRefusal s) (step s) := by
  have one {u : State} (starts : StartsInstruction s (spendAsi u)) : EndsFor (StepFault s) (StepRefusal s) (afterBreakIn u) :=
    afterBreakIn_endsFor ((executeOne_endsFor u).mono (fun _ h => .inr ⟨_, starts, h⟩) fun _ h => ⟨_, starts, h⟩)
  unfold step boundary
  dsimp only
  split
  · exact trivial
  · split
    next due =>
      split
      next stop stopped => exact endsFor_of_debugEvent stopped fun bad => .inl ⟨rfl, due, bad⟩
      next t acted =>
        split
        · exact trivial
        · exact one (.inr ⟨t, due, acted, rfl⟩)
    · exact one (.inl rfl)

/-- Settles O60: the causes of an instruction by `exec_endsFor`, of a fetch by `stopsFor_fetch`, of a step by `step_endsFor`. -/
theorem stopsHaveTheirCause : Obligations.StopsHaveTheirCause := by
  unfold Obligations.StopsHaveTheirCause
  refine ⟨fun i s => ?_, fun s => ⟨fetch_not_refused s, fun f => fetchFault_of_fetch⟩, fun s => ?_⟩
  · obtain ⟨faults, refuses⟩ := endsFor_iff.mp (exec_endsFor i s)
    exact ⟨faults .missingProtectionSet, faults .peripheralPage, faults .mmuSwitchUndefined, faults .debugAreaUndefined,
      refuses⟩
  · obtain ⟨faults, refuses⟩ := endsFor_iff.mp (step_endsFor s)
    refine ⟨fun f stopped => ?_, fun r refused => ?_⟩
    · rcases faults f stopped with breakIn | ⟨b, starts, (fetched | ⟨c, i, runs', instr⟩) | ⟨rfl, n, before⟩ |
        ⟨rfl, c, u, n, runs', after⟩⟩
      · exact .inl breakIn
      · exact .inr (.inl ⟨b, starts, fetched⟩)
      · exact .inr (.inr (.inl ⟨b, c, i, ⟨starts, runs'⟩, instr⟩))
      · exact .inr (.inr (.inr (.inl ⟨rfl, b, n, starts, before⟩)))
      · exact .inr (.inr (.inr (.inr ⟨rfl, b, c, u, n, ⟨starts, runs'⟩, after⟩)))
    · obtain ⟨b, starts, c, i, runs', instr⟩ := refuses r refused
      exact ⟨b, c, i, ⟨starts, runs'⟩, instr⟩

end Sys2Proof.Machine
end
